-- ==== Sys2Proof/Word.lean ====
section
/-! DEFINITION. The word types of the SX9648: 32-bit words, bytes, half-words, and the 16-byte Stack message
(00_scope.md R7: little-endian unless a layout states otherwise; byte 0 is the least significant byte). -/

namespace Sys2Proof

/-- A 32-bit word: every register (00_scope.md "Registers and fields"). -/
abbrev Word := BitVec 32

/-- One byte. -/
abbrev Byte := BitVec 8

/-- A 16-bit half-word. -/
abbrev Half := BitVec 16

/-- A 16-byte Stack message, byte 0 in bits 7..0 (16_stack_link.md R335). -/
abbrev Msg := BitVec 128

/-- A general-register number of a Lerzia instruction (03_lerzia.md R70). -/
abbrev Reg := BitVec 5

/-- An FP-register number, 0-15 (03_lerzia.md R70). -/
abbrev FReg := BitVec 4

/-- Sign extension to a word. -/
def sext {n : Nat} (v : BitVec n) : Word := v.signExtend 32

/-- Zero extension (or truncation) to a word. -/
def zext {n : Nat} (v : BitVec n) : Word := v.setWidth 32

end Sys2Proof
end

