-- ==== Sys2Proof/Syntax.lean ====
section
/-! DEFINITION. The commands of the block: one constructor per row of spec/opcode_table.json, in the table's order.
An operand is what the outside world gives with the step (an initiator, an index, the word written, a sample, a received
frame). What a step does is Sys2Proof/Machine; which operands make sense is Sys2Proof/WellFormed.lean. -/

namespace Sys2Proof

/-- The two hardware threads of the Stoker (03_lerzia.md R56). -/
inductive Thread where
  | F | B
  deriving DecidableEq, Repr

/-- The initiators of accesses to the address space, in priority order (01_architecture.md R24). -/
inductive Initiator where
  | F | B | spi | twi0
  deriving DecidableEq, Repr

/-- The two controllers a witness serves (17_pairing.md R351). -/
inductive Ctl where
  | A | B
  deriving DecidableEq, Repr

/-- What cycle 0 of a tick samples at the pins and at the modulators (02_tick.md R39, 11_battery.md R246, 13_mram.md R286).
A Bool pin field is true while the signal is asserted; `ash` lists the modulator counts of strings 0, 1, ... of the tick before. -/
structure PinSample where
  acfail : BitVec 2
  damperIn : Bool
  witGrant : Bool
  pfail : Bool
  chgdet : Bool
  holdup : BitVec 12
  ash : List (BitVec 24)
  deriving DecidableEq, Repr

/-- One word of the fuse array as sensed: the OR of the two copies at the normal and at the margin reference (14_fuses.md R301). -/
structure FuseReading where
  w : Byte
  normal : Word
  margin : Word
  deriving DecidableEq, Repr

/-- The commands (spec/opcode_table.json). -/
inductive Instr where
  /-- TICK_START (R39). At cycle 0 of every tick TICK increments, all channels sample, pins are sampled, imports latch and the cycle-0 actions of every unit run. -/
  | tickStart (pins : PinSample)
  /-- CONVERSION_DONE (R41). An ADC slot ends and delivers a scaled FP32 sample of its channel to the Firebox. -/
  | conversionDone (c : Fin 96) (code : BitVec 14)
  /-- CONTEXT_RUN (R117). An enabled Firebox context reaches its start cycle, reads its sources and computes its law for the tick. -/
  | contextRun (x : Fin 128)
  /-- OUTPUT_STROBE (R43). At cycle 240 outputs, references, limits and exports take effect together and thread F wakes. -/
  | outputStrobe
  /-- FRAME_OVERRUN (R85). Thread F has not yielded by cycle 540 and is preempted, counting an overrun. -/
  | frameOverrun
  /-- SHADOW_COMMIT (R20). At cycle 599 shadow parameters are checked and copied to their active copies. -/
  | shadowCommit
  /-- SLOW_FRAME_BOUNDARY (R28). At the first tick of a slow frame the flag is set, the ash snapshot is latched and slow-frame counters advance. -/
  | slowFrameBoundary
  /-- SRAM_SCRUB (R31). The background scrubber visits a memory word in a free cycle and writes back a corrected word. -/
  | sramScrub (a : Word)
  /-- REGISTER_WRITE (R8). A host or Stoker write to a register that has no row of its own takes effect under its field access types. -/
  | registerWrite (ini : Initiator) (a : Word) (v : Word)
  /-- ABSENT_UNIT_ACCESS (R2). An access to an absent unit or instance reads 0, writes nothing and sets unit_absent. -/
  | absentUnitAccess (ini : Initiator) (a : Word)
  /-- UNMAPPED_ACCESS (R420). A host access to an unmapped address reads 0, writes nothing and sets unmapped. -/
  | unmappedAccess (ini : Initiator) (a : Word)
  /-- TICK_LO_READ (R45). A read of SYS_TICK_LO returns TICK[31:0] and latches the upper bits and epoch for that initiator. -/
  | tickLoRead (ini : Initiator)
  /-- TICK_WRAP (R46). TICK wraps to 0 and the hall epoch increments in the same cycle. -/
  | tickWrap
  /-- LINK_MODE_ENTER (R32). After src is set to 1 and the up_port has locked, the PLL changes to link mode. -/
  | linkModeEnter
  /-- LINK_CLK_LOST (R33). The recovered clock fails and the controller changes to reference mode within one tick. -/
  | linkClkLost
  /-- REFCLK_LOST (R34). Four missing reference edges declare REFCLK absent, entering holdover in reference mode. -/
  | refclkLost
  /-- REFCLK_BACK (R35). REFCLK returns during holdover and the PLL relocks. -/
  | refclkBack
  /-- HOLDOVER_EXP (R35). Holdover lasts 10,000 ticks and every phase is stopped by hardware. -/
  | holdoverExp
  /-- SYNC (R340). A TIME SYNC message from the parent updates the follower's offset, slewing, lock and count mismatch. -/
  | sync (p : Fin 4) (ptick : BitVec 48) (pepoch : BitVec 16) (hops : BitVec 4) (otick : BitVec 48) (late : Int)
  /-- DELAY_REQ (R340). A TIME DELAY_REQ is received and answered with a DELAY_RSP carrying the turnaround. -/
  | delayReq (p : Fin 4) (turn : Word)
  /-- DELAY_RSP (R340). A TIME DELAY_RSP completes a hop-delay measurement of the port. -/
  | delayRsp (p : Fin 4) (turn : Word) (trip : Word)
  /-- TIME_LOST (R51). A follower loses time from its parent and runs free. -/
  | timeLost (cause : Fin 3)
  /-- LINK_MODE_RETURN (R52). The up_port holds a valid stream for 64 ticks and the controller returns to link mode. -/
  | linkModeReturn
  /-- TIME_CMD_STEP (R52). A write of SYS_TIME_CMD.step requests adoption of the parent's tick count. -/
  | timeCmdStep (ini : Initiator)
  /-- TIME_STEP (R52). At the parent's next slow-frame boundary the follower replaces its TICK with the parent's count. -/
  | timeStep
  /-- TIME_CMD_SET_EPOCH (R46). The root writes SYS_TIME_CMD.set_epoch to request a new hall epoch. -/
  | timeCmdSetEpoch (ini : Initiator) (e : BitVec 16)
  /-- EPOCH_SET (R46). The requested epoch takes effect at the next slow-frame boundary. -/
  | epochSet
  /-- ADD (R73). Integer add of two registers. -/
  | add (th : Thread) (rd : Reg) (rs1 : Reg) (rs2 : Reg)
  /-- SUB (R73). Integer subtract of two registers. -/
  | sub (th : Thread) (rd : Reg) (rs1 : Reg) (rs2 : Reg)
  /-- AND (R73). Bitwise AND of two registers. -/
  | and (th : Thread) (rd : Reg) (rs1 : Reg) (rs2 : Reg)
  /-- OR (R73). Bitwise OR of two registers. -/
  | or (th : Thread) (rd : Reg) (rs1 : Reg) (rs2 : Reg)
  /-- XOR (R73). Bitwise XOR of two registers. -/
  | xor (th : Thread) (rd : Reg) (rs1 : Reg) (rs2 : Reg)
  /-- SLL (R73). Shift left logical by rs2[4:0]. -/
  | sll (th : Thread) (rd : Reg) (rs1 : Reg) (rs2 : Reg)
  /-- SRL (R73). Shift right logical by rs2[4:0]. -/
  | srl (th : Thread) (rd : Reg) (rs1 : Reg) (rs2 : Reg)
  /-- SRA (R73). Shift right arithmetic by rs2[4:0]. -/
  | sra (th : Thread) (rd : Reg) (rs1 : Reg) (rs2 : Reg)
  /-- SLT (R73). Set if less than, signed. -/
  | slt (th : Thread) (rd : Reg) (rs1 : Reg) (rs2 : Reg)
  /-- SLTU (R73). Set if less than, unsigned. -/
  | sltu (th : Thread) (rd : Reg) (rs1 : Reg) (rs2 : Reg)
  /-- MIN (R73). Signed minimum. -/
  | min (th : Thread) (rd : Reg) (rs1 : Reg) (rs2 : Reg)
  /-- MAX (R73). Signed maximum. -/
  | max (th : Thread) (rd : Reg) (rs1 : Reg) (rs2 : Reg)
  /-- MINU (R73). Unsigned minimum. -/
  | minu (th : Thread) (rd : Reg) (rs1 : Reg) (rs2 : Reg)
  /-- MAXU (R73). Unsigned maximum. -/
  | maxu (th : Thread) (rd : Reg) (rs1 : Reg) (rs2 : Reg)
  /-- MUL (R73). Low 32 bits of the product. -/
  | mul (th : Thread) (rd : Reg) (rs1 : Reg) (rs2 : Reg)
  /-- MULH (R73). High 32 bits of the signed product. -/
  | mulh (th : Thread) (rd : Reg) (rs1 : Reg) (rs2 : Reg)
  /-- MULHU (R73). High 32 bits of the unsigned product. -/
  | mulhu (th : Thread) (rd : Reg) (rs1 : Reg) (rs2 : Reg)
  /-- DIV (R73). Signed division with zero and overflow rules setting idz. -/
  | div (th : Thread) (rd : Reg) (rs1 : Reg) (rs2 : Reg)
  /-- DIVU (R73). Unsigned division with the zero-divisor rule. -/
  | divu (th : Thread) (rd : Reg) (rs1 : Reg) (rs2 : Reg)
  /-- REM (R73). Signed remainder with the zero and overflow rules. -/
  | rem (th : Thread) (rd : Reg) (rs1 : Reg) (rs2 : Reg)
  /-- REMU (R73). Unsigned remainder with the zero-divisor rule. -/
  | remu (th : Thread) (rd : Reg) (rs1 : Reg) (rs2 : Reg)
  /-- ADDI (R73). Add a sign-extended immediate. -/
  | addi (th : Thread) (rd : Reg) (rs1 : Reg) (imm : BitVec 16)
  /-- ANDI (R73). AND with a zero-extended immediate. -/
  | andi (th : Thread) (rd : Reg) (rs1 : Reg) (imm : BitVec 16)
  /-- ORI (R73). OR with a zero-extended immediate. -/
  | ori (th : Thread) (rd : Reg) (rs1 : Reg) (imm : BitVec 16)
  /-- XORI (R73). XOR with a zero-extended immediate. -/
  | xori (th : Thread) (rd : Reg) (rs1 : Reg) (imm : BitVec 16)
  /-- SLTI (R73). Set if less than a sign-extended immediate, signed. -/
  | slti (th : Thread) (rd : Reg) (rs1 : Reg) (imm : BitVec 16)
  /-- SLTIU (R73). Set if less than a sign-extended immediate, unsigned. -/
  | sltiu (th : Thread) (rd : Reg) (rs1 : Reg) (imm : BitVec 16)
  /-- SLLI (R73). SHI with imm[6:5] = 0: shift left logical by an immediate. -/
  | slli (th : Thread) (rd : Reg) (rs1 : Reg) (sh : BitVec 5)
  /-- SRLI (R73). SHI with imm[6:5] = 1: shift right logical by an immediate. -/
  | srli (th : Thread) (rd : Reg) (rs1 : Reg) (sh : BitVec 5)
  /-- SRAI (R73). SHI with imm[6:5] = 2: shift right arithmetic by an immediate. -/
  | srai (th : Thread) (rd : Reg) (rs1 : Reg) (sh : BitVec 5)
  /-- LUI (R73). Load an immediate into the upper 16 bits. -/
  | lui (th : Thread) (rd : Reg) (imm : BitVec 16)
  /-- LW (R67). Load a word from the addressed target at its cost and restrictions. -/
  | lw (th : Thread) (rd : Reg) (rs1 : Reg) (imm : BitVec 16)
  /-- LH (R67). Load a sign-extended halfword. -/
  | lh (th : Thread) (rd : Reg) (rs1 : Reg) (imm : BitVec 16)
  /-- LHU (R67). Load a zero-extended halfword. -/
  | lhu (th : Thread) (rd : Reg) (rs1 : Reg) (imm : BitVec 16)
  /-- LB (R67). Load a sign-extended byte. -/
  | lb (th : Thread) (rd : Reg) (rs1 : Reg) (imm : BitVec 16)
  /-- LBU (R67). Load a zero-extended byte. -/
  | lbu (th : Thread) (rd : Reg) (rs1 : Reg) (imm : BitVec 16)
  /-- SW (R67). Store a word to the addressed target. -/
  | sw (th : Thread) (rs2 : Reg) (rs1 : Reg) (imm : BitVec 16)
  /-- SH (R67). Store a halfword. -/
  | sh (th : Thread) (rs2 : Reg) (rs1 : Reg) (imm : BitVec 16)
  /-- SB (R67). Store a byte. -/
  | sb (th : Thread) (rs2 : Reg) (rs1 : Reg) (imm : BitVec 16)
  /-- FLW (R73). Load a word into an FP register. -/
  | flw (th : Thread) (fd : FReg) (rs1 : Reg) (imm : BitVec 16)
  /-- FSW (R73). Store an FP register as a word. -/
  | fsw (th : Thread) (fs2 : FReg) (rs1 : Reg) (imm : BitVec 16)
  /-- LDP (R74). Load a complement pair, trapping on mismatch. -/
  | ldp (th : Thread) (rd : Reg) (rs1 : Reg) (imm : BitVec 16)
  /-- STP (R74). Store a value and its complement on alternate cycles. -/
  | stp (th : Thread) (rs2 : Reg) (rs1 : Reg) (imm : BitVec 16)
  /-- LDPD (R74). Load a 64-bit complement pair, trapping on mismatch. -/
  | ldpd (th : Thread) (rd : Reg) (rs1 : Reg) (imm : BitVec 16)
  /-- STPD (R74). Store a 64-bit value and its complement. -/
  | stpd (th : Thread) (rs2 : Reg) (rs1 : Reg) (imm : BitVec 16)
  /-- BEQ (R72). Branch if equal. -/
  | beq (th : Thread) (rs1 : Reg) (rs2 : Reg) (off : BitVec 16)
  /-- BNE (R72). Branch if not equal. -/
  | bne (th : Thread) (rs1 : Reg) (rs2 : Reg) (off : BitVec 16)
  /-- BLT (R72). Branch if less than, signed. -/
  | blt (th : Thread) (rs1 : Reg) (rs2 : Reg) (off : BitVec 16)
  /-- BGE (R72). Branch if greater or equal, signed. -/
  | bge (th : Thread) (rs1 : Reg) (rs2 : Reg) (off : BitVec 16)
  /-- BLTU (R72). Branch if less than, unsigned. -/
  | bltu (th : Thread) (rs1 : Reg) (rs2 : Reg) (off : BitVec 16)
  /-- BGEU (R72). Branch if greater or equal, unsigned. -/
  | bgeu (th : Thread) (rs1 : Reg) (rs2 : Reg) (off : BitVec 16)
  /-- JAL (R72). Jump relative and write the return address. -/
  | jal (th : Thread) (rd : Reg) (off : BitVec 21)
  /-- JALR (R73). Jump to a register plus offset and write the return address. -/
  | jalr (th : Thread) (rd : Reg) (rs1 : Reg) (imm : BitVec 16)
  /-- FADD (R76). FP32 add. -/
  | fadd (th : Thread) (fd : FReg) (fs1 : FReg) (fs2 : FReg)
  /-- FSUB (R76). FP32 subtract. -/
  | fsub (th : Thread) (fd : FReg) (fs1 : FReg) (fs2 : FReg)
  /-- FMUL (R76). FP32 multiply. -/
  | fmul (th : Thread) (fd : FReg) (fs1 : FReg) (fs2 : FReg)
  /-- FMAC (R76). FP32 multiply-accumulate rounded once. -/
  | fmac (th : Thread) (fd : FReg) (fs1 : FReg) (fs2 : FReg)
  /-- FDIV (R76). FP32 divide with the zero and infinity rules. -/
  | fdiv (th : Thread) (fd : FReg) (fs1 : FReg) (fs2 : FReg)
  /-- FSQRT (R76). FP32 square root. -/
  | fsqrt (th : Thread) (fd : FReg) (fs1 : FReg)
  /-- FMIN (R76). FP32 minimum, NaN yielding the other operand. -/
  | fmin (th : Thread) (fd : FReg) (fs1 : FReg) (fs2 : FReg)
  /-- FMAX (R76). FP32 maximum, NaN yielding the other operand. -/
  | fmax (th : Thread) (fd : FReg) (fs1 : FReg) (fs2 : FReg)
  /-- FCLIP (R76). Clamp an FP register between two bounds. -/
  | fclip (th : Thread) (fd : FReg) (fs1 : FReg) (fs2 : FReg)
  /-- FABS (R76). FP absolute value by sign bit. -/
  | fabs (th : Thread) (fd : FReg) (fs1 : FReg)
  /-- FNEG (R76). FP negate by sign bit. -/
  | fneg (th : Thread) (fd : FReg) (fs1 : FReg)
  /-- FMOV (R76). FP register move. -/
  | fmov (th : Thread) (fd : FReg) (fs1 : FReg)
  /-- FCVTWS (R76). Convert FP32 to a saturated signed integer. -/
  | fcvtws (th : Thread) (rd : Reg) (fs1 : FReg)
  /-- FCVTSW (R76). Convert a signed integer to FP32. -/
  | fcvtsw (th : Thread) (fd : FReg) (rs1 : Reg)
  /-- FMVXW (R76). Copy FP register bits to a general register. -/
  | fmvxw (th : Thread) (rd : Reg) (fs1 : FReg)
  /-- FMVWX (R76). Copy general register bits to an FP register. -/
  | fmvwx (th : Thread) (fd : FReg) (rs1 : Reg)
  /-- FEQ (R76). FP equality compare. -/
  | feq (th : Thread) (rd : Reg) (fs1 : FReg) (fs2 : FReg)
  /-- FLT (R76). FP less-than compare. -/
  | flt (th : Thread) (rd : Reg) (fs1 : FReg) (fs2 : FReg)
  /-- FLE (R76). FP less-or-equal compare. -/
  | fle (th : Thread) (rd : Reg) (fs1 : FReg) (fs2 : FReg)
  /-- YIELD (R59). Thread F ends its frame slice. -/
  | yield (th : Thread)
  /-- TWAIT (R77). Thread B starts waiting for the n-th tick after issue. -/
  | twait (th : Thread) (rs1 : Reg)
  /-- TWAIT_WAKE (R77). A TWAIT's wait ends at cycle 0 of its tick and thread B resumes. -/
  | twaitWake
  /-- EWAIT (R80). Thread B collects pending masked events or starts waiting for them. -/
  | ewait (th : Thread) (rd : Reg) (rs1 : Reg)
  /-- EWAIT_WAKE (R80). A masked event bit is set and a waiting EWAIT resumes, collecting the bits. -/
  | ewaitWake
  /-- RDSR (R64). Read a special register. -/
  | rdsr (th : Thread) (rd : Reg) (sr : BitVec 5)
  /-- WRSR (R65). Write a special register. -/
  | wrsr (th : Thread) (sr : BitVec 5) (rs1 : Reg)
  /-- TRAP (R77). Raise a soft trap with cause 0x09. -/
  | trap (th : Thread) (rs1 : Reg)
  /-- RETT (R77). Return from a trap to tpc. -/
  | rett (th : Thread)
  /-- WDKICK (R91). Reload the watchdog counter. -/
  | wdkick (th : Thread)
  /-- TSTEP (R104). Step a sequencer machine within a cycle budget. -/
  | tstep (th : Thread) (rd : Reg) (rs1 : Reg) (imm : BitVec 16)
  /-- TCURV (R111). Evaluate an installed curve at an abscissa. -/
  | tcurv (th : Thread) (fd : FReg) (fs1 : FReg) (rs2 : Reg)
  /-- FBR (R78). Read an active descriptor word. -/
  | fbr (th : Thread) (rd : Reg) (rs2 : Reg)
  /-- FBW (R79). Write a shadow descriptor word. -/
  | fbw (th : Thread) (rd : Reg) (rs1 : Reg) (rs2 : Reg)
  /-- FBWP (R79). Write a shadow descriptor complement pair. -/
  | fbwp (th : Thread) (rd : Reg) (rs1 : Reg) (rs2 : Reg)
  /-- FBST (R78). Read a context's status word. -/
  | fbst (th : Thread) (rd : Reg) (rs2 : Reg)
  /-- FBCLR (R137). Request re-arm of a faulted context at the commit. -/
  | fbclr (th : Thread) (rd : Reg) (rs2 : Reg)
  /-- EMINT (R215). Mint Embers into the pool, paying debt first. -/
  | emint (th : Thread) (rd : Reg) (rs1 : Reg) (rs2 : Reg)
  /-- EBURN (R215). Burn Embers from free. -/
  | eburn (th : Thread) (rd : Reg) (rs1 : Reg) (rs2 : Reg)
  /-- EGRANT (R215). Grant Embers from free to a holder. -/
  | egrant (th : Thread) (rd : Reg) (rs1 : Reg) (rs2 : Reg)
  /-- EREVK (R221). Begin a revocation of Embers from a holder. -/
  | erevk (th : Thread) (rd : Reg) (rs1 : Reg) (rs2 : Reg)
  /-- EXFER (R226). Open an outgoing two-phase transfer offer to a neighbour. -/
  | exfer (th : Thread) (rd : Reg) (rs1 : Reg) (rs2 : Reg)
  /-- EQRY (R78). Return pool_free. -/
  | eqry (th : Thread) (rd : Reg)
  /-- TMEAS (R235). Queue a temperature measurement of a sensor. -/
  | tmeas (th : Thread) (rd : Reg) (rs1 : Reg)
  /-- TRES (R78). Return a sensor's last result and done flag. -/
  | tres (th : Thread) (rd : Reg) (rs1 : Reg)
  /-- LOGE (R79). Post a program record to the recorder. -/
  | loge (th : Thread) (rd : Reg) (rs1 : Reg) (rs2 : Reg)
  /-- NVWR (R287). Offer a 64-byte page write to the gated MRAM queue. -/
  | nvwr (th : Thread) (rd : Reg) (rs1 : Reg) (rs2 : Reg)
  /-- NVQ (R78). Return the number of pages queued or in progress. -/
  | nvq (th : Thread) (rd : Reg)
  /-- SSEND (R79). Queue a 16-byte Stack message on a port. -/
  | ssend (th : Thread) (rd : Reg) (rs1 : Reg) (rs2 : Reg)
  /-- SRECV (R78). Copy the oldest waiting message of a class. -/
  | srecv (th : Thread) (rd : Reg) (rs1 : Reg) (rs2 : Reg)
  /-- PMIR (R356). Add program state to this tick's mirror frame. -/
  | pmir (th : Thread) (rd : Reg) (rs1 : Reg) (rs2 : Reg)
  /-- WATCHDOG_START (R89). A write of SYS_WDOG.en = 1 loads the watchdog counter with period. -/
  | watchdogStart (ini : Initiator) (period : Byte)
  /-- WDOG_EXPIRED (R90). The watchdog counter reaches 0 and the safe state is taken. -/
  | wdogExpired
  /-- SEQ_INST_GO (R96). A go write to SEQ_INST_CMD starts validation of a table for installation. -/
  | seqInstGo (ini : Initiator) (keep : Bool)
  /-- SEQ_INST_REMOVE (R100). A go write with remove set requests removal of an installed table. -/
  | seqInstRemove (ini : Initiator) (typ : BitVec 3) (id : Byte)
  /-- TABLE_VALIDATION_DONE (R425). Table validation completes with its result. -/
  | tableValidationDone
  /-- TABLE_INSTALLED (R98). A validated table takes effect at the commit, replacing the old one. -/
  | tableInstalled
  /-- TABLE_REMOVED (R100). A requested removal is decided and takes effect at the commit. -/
  | tableRemoved
  /-- SEQ_MEVSET (R109). A write to SEQ_MEVSET sets machine event bits. -/
  | seqMevset (ini : Initiator) (j : Fin 64) (bits : BitVec 16)
  /-- SEQ_TIMER_EXPIRE (R108). A sequencer timer expires, setting its expired bit and evpend.seq. -/
  | seqTimerExpire (i : Fin 128)
  /-- FE_EXPIRE (R155). A following-error window reaches t_fe and the context faults with cause 1. -/
  | feExpire (x : Fin 128)
  /-- FBX_CLR (R137). A host go write to FBX_CLR requests re-arm of a context. -/
  | fbxClr (ini : Initiator) (x : Fin 128)
  /-- CTX_REARM (R137). A re-armed context's fault clears at the commit. -/
  | ctxRearm (x : Fin 128)
  /-- EXPORT_MESSAGE (R134). An export message of Type 0x10 + j is received for latching. -/
  | exportMessage (src : BitVec 14) (j : Fin 16) (v0 : Word) (v1 : Word)
  /-- IMPORT_LATCH (R134). Received exports and Draft forwards latch at cycle 0 of the next tick. -/
  | importLatch
  /-- RESUME_PRIMED (R159). In tick h + r after handover, contexts are primed and the Firebox resumes. -/
  | resumePrimed
  /-- PERIOD_START (R162). A phase's carrier reaches its offset and a switching period begins. -/
  | periodStart (n : Fin 48)
  /-- COMPARATOR_TRIP (R162). The peak-current comparator finds the threshold crossed and ends the on-time. -/
  | comparatorTrip (n : Fin 48) (sense : BitVec 12) (on : BitVec 18)
  /-- CARRIER_WRAP (R168). A rail carrier wraps and changed offsets take effect. -/
  | carrierWrap (g : Fin 16)
  /-- PHASE_AOC (R183). The sensed signal leaves the absolute window and the phase stops with cause 3. -/
  | phaseAoc (n : Fin 48) (code : BitVec 12)
  /-- PHASE_SENSE_OPEN (R184). The off-time check finds the sense path open and stops the phase with cause 4. -/
  | phaseSenseOpen (n : Fin 48)
  /-- PHASE_OPEN (R186). The 32nd consecutive counted period stops the phase with cause 5. -/
  | phaseOpen (n : Fin 48)
  /-- PHS_CLR_FAULT (R188). A write of PHS_CLR.fault clears a phase fault. -/
  | phsClrFault (ini : Initiator) (n : Fin 48)
  /-- PHS_CLR_RETURNED (R188). A write of PHS_CLR.returned clears the burned bit. -/
  | phsClrReturned (ini : Initiator) (n : Fin 48)
  /-- PHS_CLR_CNT (R182). A write of PHS_CLR.cnt clears PHS_CNT. -/
  | phsClrCnt (ini : Initiator) (n : Fin 48)
  /-- PHASE_SHED (R173). After s_qual steps below shd the highest running phase is shed. -/
  | phaseShed (g : Fin 16)
  /-- BURST_ENTER (R174). After b_qual steps at or below enter the rail enters BURST. -/
  | burstEnter (g : Fin 16)
  /-- RAIL_INREG (R179). The 16th consecutive step within band sets inreg. -/
  | railInreg (g : Fin 16)
  /-- RETRIES_CLEAR (R179). The 1,024th consecutive step with inreg set returns retries to 0. -/
  | retriesClear (g : Fin 16)
  /-- SOFT_START_DONE (R177). t_ss ticks after entry the rail moves from SOFT_START to RUN. -/
  | softStartDone (g : Fin 16)
  /-- SOFT_STOP_DONE (R180). t_sst ticks after entry the members stop and the rail enters OFF. -/
  | softStopDone (g : Fin 16)
  /-- HICCUP_DONE (R176). The hiccup time elapses and the rail restarts soft start. -/
  | hiccupDone (g : Fin 16)
  /-- OFF_MIN_EXPIRE (R176). The minimum off time ends and a pending enable may start the rail. -/
  | offMinExpire (g : Fin 16)
  /-- ANNOUNCE (R197). A Draft ANNOUNCE frame is received and validated. -/
  | announce (d : Fin 32) (src : Byte) (shape : BitVec 4) (mag : BitVec 16) (lead : BitVec 12) (sq : BitVec 4)
  /-- DRAFT_CANCEL (R203). A Draft CANCEL frame withdraws an announcement. -/
  | draftCancel (d : Fin 32) (src : Byte) (lead : BitVec 12) (sq : BitVec 4)
  /-- MARKER (R202). A Draft MARKER frame marks the arrival of an announced step. -/
  | marker (d : Fin 32) (src : Byte) (lead : BitVec 12) (sq : BitVec 4)
  /-- HEARTBEAT (R198). A Draft HEARTBEAT frame restarts the source's liveness window. -/
  | heartbeat (d : Fin 32) (src : Byte) (sq : BitVec 4)
  /-- DRAFT_ACCEPT (R199). An accepted announcement is processed a tick later into the pending table. -/
  | draftAccept
  /-- MARKER_WINDOW_OPEN (R204). An entry's marker window opens and the measured-step base is captured. -/
  | markerWindowOpen (i : Fin 64)
  /-- DRAFT_NOSHOW (R203). A marker window expires without arrival and the recovery ramp-out begins. -/
  | draftNoshow (i : Fin 64)
  /-- DRAFT_ENTRY_FREE (R201). An entry's ramp-out ends and the entry is freed. -/
  | draftEntryFree (i : Fin 64)
  /-- DRAFT_SRC_DOWN (R198). A liveness window expires and the source's entries are withdrawn. -/
  | draftSrcDown (d : Fin 32) (src : Byte)
  /-- DRAFT_FWD_TRAJ (R207). A CTRL message of Type 0x20 carrying a member's P and S is received. -/
  | draftFwdTraj (p : Fin 4) (pw : Word) (sw : Word)
  /-- DRAFT_FWD_VPP (R207). A CTRL message of Type 0x21 carrying the lead's V_pp is received. -/
  | draftFwdVpp (p : Fin 4) (v : Word) (tk : Word)
  /-- DRAFT_FWD_STALE (R208). A forwarded value is not refreshed for 4 ticks and ramps to 0. -/
  | draftFwdStale (p : Fin 4)
  /-- ACFAIL_ASSERT (R194). An ACFAIL_N input is sampled asserted and its feed-forward applies. -/
  | acfailAssert (i : Fin 2)
  /-- ACFAIL_CLEAR (R194). An ACFAIL_N input is sampled deasserted and its release ramp begins. -/
  | acfailClear (i : Fin 2)
  /-- ACFAIL_RAMP_END (R194). A release ramp runs its L ticks and the contribution falls to 0. -/
  | acfailRampEnd (i : Fin 2)
  /-- DFT_CLR (R197). A write of DFT_CLR.cnt clears every DFT_RXST counter. -/
  | dftClr (ini : Initiator)
  /-- REQUEST (R219). EMB_HCMD REQUEST records a holder's request for the program. -/
  | request (ini : Initiator) (h : Fin 256)
  /-- RETURN (R215). EMB_HCMD RETURN gives Embers back from a holder to free. -/
  | embReturn (ini : Initiator) (h : Fin 256)
  /-- RENEW (R220). EMB_HCMD RENEW opens a new lease window. -/
  | renew (ini : Initiator) (h : Fin 256)
  /-- REVOKE_ACK (R221). EMB_HCMD REVOKE_ACK completes a holder's pending revocation. -/
  | revokeAck (ini : Initiator) (h : Fin 256)
  /-- EMB_WRITEOFF (R231). EMB_XCMD writes off an open outgoing transfer. -/
  | embWriteoff (ini : Initiator) (i : Fin 32)
  /-- EMB_LEASE_EXP (R220). A lease window expires and grant above floor is revoked. -/
  | embLeaseExp (h : Fin 256)
  /-- REVOKE_DEADLINE (R221). A revocation deadline expires and the holder enters ENFORCE. -/
  | revokeDeadline (h : Fin 256)
  /-- EMB_ENFORCE (R222). The first attempt to write an allowance to the hot-swap controller starts. -/
  | embEnforce (h : Fin 256)
  /-- ENFORCE_WRITE_END (R222). An enforcement write ends, completing the pend or counting a failed attempt. -/
  | enforceWriteEnd (h : Fin 256) (ok : Bool) (err : BitVec 4)
  /-- ENFORCE_RETRY (R222). The retry interval after a failed attempt ends and the next attempt starts. -/
  | enforceRetry (h : Fin 256)
  /-- OFFER (R228). A received OFFER is accepted or rejected. -/
  | offer (p : Fin 4) (src : BitVec 14) (xid : Word) (w : Word)
  /-- COMMIT (R228). A received COMMIT closes an incoming record and is answered DONE. -/
  | commit (p : Fin 4) (src : BitVec 14) (xid : Word)
  /-- CANCEL (R228). A received CANCEL is answered by the receiver's record state. -/
  | cancel (p : Fin 4) (src : BitVec 14) (xid : Word)
  /-- ASK (R227). A received ASK writes EMB_ASK and sets evpend.emb. -/
  | ask (p : Fin 4) (w : Word)
  /-- ACCEPT (R229). A received ACCEPT settles the sender's transit and moves the record to COMMITTING. -/
  | accept (p : Fin 4) (src : BitVec 14) (xid : Word) (w : Word)
  /-- REJECT (R229). A received REJECT returns the amount to free and closes the record. -/
  | reject (p : Fin 4) (src : BitVec 14) (xid : Word) (reason : Word)
  /-- DONE (R229). A received DONE closes a COMMITTING record. -/
  | embDone (p : Fin 4) (src : BitVec 14) (xid : Word)
  /-- XFER_RETRANSMIT (R229). t_retry elapses and an open record's message is sent again. -/
  | xferRetransmit (i : Fin 32)
  /-- OFFER_TIMEOUT (R229). t_offer elapses and an OFFERED record moves to CANCELLING. -/
  | offerTimeout (i : Fin 32)
  /-- THM_MEAS_START (R235). The idle converter starts the oldest queued measurement at cycle 0. -/
  | thmMeasStart
  /-- THM_MEAS_DONE (R235). A measurement completes, its result is stored and evaluated for each zone. -/
  | thmMeasDone (mean : Int) (brk : Bool)
  /-- THM_GRACE_EXPIRE (R239). A zone's grace timer expires and the zone enters level 2. -/
  | thmGraceExpire (z : Fin 8)
  /-- THM_SUBST (R244). A go write to THM_SUBST replaces a member sensor of a zone. -/
  | thmSubst (ini : Initiator) (z : Fin 8) (tNew : BitVec 6) (tOld : BitVec 6)
  /-- THM_ZONE_DISABLE (R237). Clearing THM_ZCFG.en ends the zone's throttling. -/
  | thmZoneDisable (ini : Initiator) (z : Fin 8)
  /-- THM_ZMEM_WRITE (R243). A membership write removes or adds sensors and their failure in the zone. -/
  | thmZmemWrite (ini : Initiator) (z : Fin 8) (hi : Bool) (v : Word)
  /-- BAT_QSET (R248). The fourth word of a BAT_QSET pair write completes. -/
  | batQset (ini : Initiator) (b : Fin 16) (v : BitVec 64)
  /-- BAT_QSET_APPLY (R248). At the next cycle 0 the accumulator takes the set value and q_bad clears. -/
  | batQsetApply (b : Fin 16)
  /-- BAT_FULL_ANCHOR (R251). The f_qual-th qualifying full frame anchors the zero point. -/
  | batFullAnchor (b : Fin 16)
  /-- BAT_CUTOFF (R253). The v_qual-th consecutive tick below the empty voltage cuts the string off. -/
  | batCutoff (b : Fin 16)
  /-- BAT_REST (R255). t_rest consecutive rest frames take a rest point and run learning. -/
  | batRest (b : Fin 16)
  /-- BAT_LCMD_RESET (R260). A write of BAT_LCMD.reset clears learning state. -/
  | batLcmdReset (ini : Initiator) (b : Fin 16)
  /-- BAT_LCMD_WB_ACK (R258). A write of BAT_LCMD.wb_ack clears wb_pend. -/
  | batLcmdWbAck (ini : Initiator) (b : Fin 16)
  /-- BAT_SHIP_ENTER (R261). A write of BAT_SHIP.enter with the key requests ship mode. -/
  | batShipEnter (ini : Initiator) (key : Byte)
  /-- SHIP_MODE_SET (R261). At cycle 0 of the next tick ship is set and SHIP_N asserted. -/
  | shipModeSet
  /-- BAT_SHIP_RELEASE (R261). A write of BAT_SHIP.release requests leaving ship mode. -/
  | batShipRelease (ini : Initiator)
  /-- SHIP_MODE_CLEAR (R261). In the next tick ship clears and SHIP_N deasserts. -/
  | shipModeClear
  /-- CHGDET_WAKE (R261). CHGDET is sampled asserted for the qualification count and ship clears. -/
  | chgdetWake
  /-- RATE_WINDOW_EXPIRE (R269). A rate-limit window expires and its summary record is posted. -/
  | rateWindowExpire (i : Fin 64)
  /-- LOG_RATE_WRITE (R268). A write to a LOG_RATE entry closes its open window. -/
  | logRateWrite (ini : Initiator) (i : Fin 64) (w1 : Bool) (v : Word)
  /-- LOG_RING_WRITE (R267). The ring writer moves a staged record into the ring, making its evictions. -/
  | logRingWrite
  /-- LOG_REL_WRITE (R274). A write of LOG_REL releases records up to the offset or is refused. -/
  | logRelWrite (ini : Initiator) (v : Word)
  /-- LOG_CLR (R272). A write of LOG_CLR clears the drop, suppression and eviction counters. -/
  | logClr (ini : Initiator)
  /-- PFAIL (R275). PFAIL_N is first sampled asserted and a black-box commit starts. -/
  | pfail
  /-- BB_DONE (R275). A black-box commit completes its seal. -/
  | bbDone
  /-- BB_CONSUMED_WRITE (R277). The gated write of the consumed word is offered in a later tick until accepted. -/
  | bbConsumedWrite
  /-- NVM_CMD (R285). A go write to NVM_CMD queues the host page buffer as a gated page write. -/
  | nvmCmd (ini : Initiator) (page : BitVec 15)
  /-- PAGE_WRITE_START (R288). A queued MRAM write starts if the hold-up covers it, or is abandoned with those behind it. -/
  | pageWriteStart
  /-- PAGE_WRITE_DONE (R284). A page or group write completes and the marker clears. -/
  | pageWriteDone
  /-- MRAM_SCRUB (R283). The MRAM scrubber reads a group and rewrites it if corrected. -/
  | mramScrub
  /-- UNLOCK_R (R293). NVM_PCMD UNLOCK_R grants the read unlock if the password matches. -/
  | unlockR (ini : Initiator) (i : Fin 8)
  /-- UNLOCK_W (R293). NVM_PCMD UNLOCK_W grants the write unlock if the password matches. -/
  | unlockW (ini : Initiator) (i : Fin 8)
  /-- LOCK (R293). NVM_PCMD LOCK withdraws both unlocks of the issuing class. -/
  | lock (ini : Initiator) (i : Fin 8)
  /-- DEFINE (R295). NVM_PCMD DEFINE writes a partition descriptor to the system area. -/
  | define (ini : Initiator) (i : Fin 8)
  /-- NVM_AB_REGISTER (R297). Writing NVM_AB.en from 0 to 1 registers an A/B record or refuses it. -/
  | nvmAbRegister (ini : Initiator) (i : Fin 16) (n : BitVec 3) (pageA : BitVec 15)
  /-- AB_VALIDATION_DONE (R298). Both copies are validated and the journal group is examined. -/
  | abValidationDone (i : Fin 16)
  /-- PROGRAM (R311). OTP_CMD PROGRAM starts programming a fuse word after its checks; `rest` holds the written word's reserved bits. -/
  | program (ini : Initiator) (key : Byte) (tries : BitVec 4) (w : Byte) (rest : Word)
  /-- OTP_PROGRAM_DONE (R312). A PROGRAM command ends by verification, attempt limit or PFAIL_N. -/
  | otpProgramDone (att : BitVec 4) (reading : Word) (verified : Bool)
  /-- SCREEN (R313). OTP_CMD SCREEN starts sensing every word at both references. -/
  | screen (ini : Initiator) (key : Byte)
  /-- OTP_SCREEN_DONE (R313). A screen completes and reports marginal words. -/
  | otpScreenDone (marg : List Byte) (sgl : BitVec 9)
  /-- CLEAR_FAULTS (R328). PMBus CLEAR_FAULTS clears every latched status bit. -/
  | clearFaults (pec : Option Byte := none)
  /-- STATUS_BYTE (R326). PMBus STATUS_BYTE reads or clears bits of the status low byte. -/
  | statusByte (w : Option Byte) (pec : Option Byte := none)
  /-- STATUS_WORD (R328). PMBus STATUS_WORD reads or clears latched status bits. -/
  | statusWord (w : Option Half) (pec : Option Byte := none)
  /-- STATUS_TEMPERATURE (R326). PMBus STATUS_TEMPERATURE reads or clears the thermal status. -/
  | statusTemperature (w : Option Byte) (pec : Option Byte := none)
  /-- STATUS_CML (R326). PMBus STATUS_CML reads or clears communication faults. -/
  | statusCml (w : Option Byte) (pec : Option Byte := none)
  /-- STATUS_MFR_SPECIFIC (R326). PMBus STATUS_MFR_SPECIFIC reads or clears TWI_MFRSTAT. -/
  | statusMfrSpecific (w : Option Byte) (pec : Option Byte := none)
  /-- PMBUS_REVISION (R326). PMBus PMBUS_REVISION returns 0x33. -/
  | pmbusRevision
  /-- MFR_ID (R326). PMBus MFR_ID returns the maker's name. -/
  | mfrId
  /-- MFR_MODEL (R326). PMBus MFR_MODEL returns the model from OTP_PART. -/
  | mfrModel
  /-- MFR_ADDR (R326). PMBus MFR_ADDR sets or reads the access pointer and read length. -/
  | mfrAddr (w : Option (List Byte)) (pec : Option Byte) (stop : Bool := true)
  /-- MFR_DATA (R327). PMBus MFR_DATA writes or reads words at the pointer. -/
  | mfrData (w : Option (List Byte)) (pec : Option Byte) (stop : Bool := true)
  /-- MFR_EMB (R326). PMBus MFR_EMB issues an Ember host command or reads EMB_HRES. -/
  | mfrEmb (w : Option (List Byte)) (pec : Option Byte)
  /-- MFR_TICK (R326). PMBus MFR_TICK returns TICK and epoch from one cycle. -/
  | mfrTick
  /-- PMBUS_MAP_COMMAND (R112). A command code looked up in PMBUS_MAP reads or writes its mapped address. -/
  | pmbusMapCommand (i : Fin 3) (code : Byte) (w : Option (List Byte)) (pec : Option Byte)
  /-- ALERT_RESPONSE (R328). A read of address 0x0C while ALERT_N is asserted returns the port address. -/
  | alertResponse
  /-- HOST_COMMAND_EXEC (R321). A queued committed TWI0 transaction executes in the address space. -/
  | hostCommandExec
  /-- TWI_EARLY_START (R320). A START where an acknowledge was due aborts the transaction. -/
  | twiEarlyStart (i : Fin 3) (cnt : Byte)
  /-- TWI_STRETCH_TIMEOUT (R317). SCL is held low for 2 ms and the transaction is abandoned. -/
  | twiStretchTimeout (i : Fin 3) (own : Bool)
  /-- TWI_SELF_RESET (R317). A line held low for 25 ms resets the port and may clear the bus. -/
  | twiSelfReset (i : Fin 3) (sda : Bool) (clk : BitVec 4 := 9)
  /-- TWI_WAKE (R318). An address byte naming a sleeping port wakes it without acknowledging. -/
  | twiWake (i : Fin 3)
  /-- SEND_BYTE (R324). TWI_CX_CMD with proto 0 starts a controller send-byte transaction. -/
  | sendByte (ini : Initiator) (i : Fin 3) (pec : Bool) (addr : BitVec 7) (code : Byte) (len : BitVec 6)
  /-- WRITE_BYTE (R324). TWI_CX_CMD with proto 1 starts a write-byte transaction. -/
  | writeByte (ini : Initiator) (i : Fin 3) (pec : Bool) (addr : BitVec 7) (code : Byte) (len : BitVec 6)
  /-- WRITE_WORD (R324). TWI_CX_CMD with proto 2 starts a write-word transaction. -/
  | writeWord (ini : Initiator) (i : Fin 3) (pec : Bool) (addr : BitVec 7) (code : Byte) (len : BitVec 6)
  /-- BLOCK_WRITE (R324). TWI_CX_CMD with proto 3 starts a block-write transaction. -/
  | blockWrite (ini : Initiator) (i : Fin 3) (pec : Bool) (addr : BitVec 7) (code : Byte) (len : BitVec 6)
  /-- RECEIVE_BYTE (R324). TWI_CX_CMD with proto 4 starts a receive-byte transaction. -/
  | receiveByte (ini : Initiator) (i : Fin 3) (pec : Bool) (addr : BitVec 7) (code : Byte) (len : BitVec 6)
  /-- READ_BYTE (R324). TWI_CX_CMD with proto 5 starts a read-byte transaction. -/
  | readByte (ini : Initiator) (i : Fin 3) (pec : Bool) (addr : BitVec 7) (code : Byte) (len : BitVec 6)
  /-- READ_WORD (R324). TWI_CX_CMD with proto 6 starts a read-word transaction. -/
  | readWord (ini : Initiator) (i : Fin 3) (pec : Bool) (addr : BitVec 7) (code : Byte) (len : BitVec 6)
  /-- BLOCK_READ (R324). TWI_CX_CMD with proto 7 starts a block-read transaction. -/
  | blockRead (ini : Initiator) (i : Fin 3) (pec : Bool) (addr : BitVec 7) (code : Byte) (len : BitVec 6)
  /-- TWI_CX_DONE (R325). A controller transaction ends and its status is reported. -/
  | twiCxDone (i : Fin 3) (status : BitVec 4) (rx : List Byte)
  /-- STACK_FRAME (R331). A tick frame is received on a port and its ack, credit and slots are handled. -/
  | stackFrame (p : Fin 4) (sq : Byte) (ack : Byte) (credit : Byte) (slots : List Msg)
  /-- STACK_FRAME_SEND (R339). At cycle 540 a port starts its frame and fills its six slots. -/
  | stackFrameSend (p : Fin 4)
  /-- STK_PORT_UP (R333). 64 consecutive valid frames put a training port UP. -/
  | stkPortUp (p : Fin 4) (far : BitVec 14)
  /-- STK_PORT_DOWN (R333). A port loses lock or frames and goes DOWN. -/
  | stkPortDown (p : Fin 4) (lockLost : Bool)
  /-- STK_NODE_WRITE (R333). A write to STK_NODE.id sends every UP port back to TRAINING. -/
  | stkNodeWrite (ini : Initiator) (id : BitVec 14)
  /-- STK_PORT_RETRAIN (R333). A write of STK_PORT_CTRL.retrain returns the port to TRAINING. -/
  | stkPortRetrain (ini : Initiator) (p : Fin 4)
  /-- STK_PORT_CLR (R335). A write of STK_PORT_CTRL.clr clears the port error counters. -/
  | stkPortClr (ini : Initiator) (p : Fin 4)
  /-- CTRL_MESSAGE (R336). A CTRL message is queued for SRECV or relayed. -/
  | ctrlMessage (p : Fin 4) (m : Msg)
  /-- LOG_MESSAGE (R336). A LOG message is queued for SRECV or relayed. -/
  | logMessage (p : Fin 4) (m : Msg)
  /-- LEAD_RETURN (R370). A CTRL message of type 0x30 announcing a lead return is delivered to SRECV. -/
  | leadReturn (p : Fin 4) (src : BitVec 14) (tk : Word) (id : Half)
  /-- STK_IMPORT_STALE (R343). An import's age reaches the stale limit. -/
  | stkImportStale (i : Fin 32)
  /-- STK_CREDIT_STALL (R341). A class waits without credit for the stall limit. -/
  | stkCreditStall (p : Fin 4) (c : Fin 4)
  /-- STK_LEAD_CHANGE (R342). A write to STK_CLU changes the cluster role or lead. -/
  | stkLeadChange (ini : Initiator) (v : Word)
  /-- GRANT_WITHDRAWN (R346). WIT_GRANT is withdrawn and DAMPER_OUT and the PWM gate fall. -/
  | grantWithdrawn
  /-- DAMPER_IN_CHANGE (R347). DAMPER_IN changes and the PWM gate opens after 200 ns or closes. -/
  | damperInChange (level : Bool)
  /-- PAIR_HANDOVER (R360). The standby samples WIT_GRANT asserted and becomes active. -/
  | pairHandover
  /-- MIRROR_FRAME (R352). A pair-link mirror frame is received and checked. -/
  | mirrorFrame (bytes : List Byte)
  /-- MIRROR_APPLY (R358). At cycle 100 the standby applies a received frame and its records. -/
  | mirrorApply
  /-- MIRROR_ACK (R358). The active checks the standby's header ack and releases withheld effects. -/
  | mirrorAck (bytes : List Byte)
  /-- PAIR_LINK_DOWN (R359). The standby becomes stale or the active goes solo. -/
  | pairLinkDown
  /-- PAIR_RESYNC (R369). A resynchronisation request starts SNAP transfer to the standby. -/
  | pairResync
  /-- PAIR_CMD_RELEASE (R361). A keyed write of PAIR_CMD.release makes the active release its damper line. -/
  | pairCmdRelease (ini : Initiator) (key : Byte)
  /-- PAIR_CMD_SWAP (R366). A keyed write of PAIR_CMD.swap schedules a role swap. -/
  | pairCmdSwap (ini : Initiator) (key : Byte)
  /-- SWAP_CHECK (R366). At tick b − 3 the active checks whether a scheduled swap may proceed. -/
  | swapCheck
  /-- PAIR_SWAP (R367). At boundary b the active yields and the standby takes the grant. -/
  | pairSwap
  /-- WITNESS_HB_TIMEOUT (R350). The witness sees no edge from the granted controller for 3.2 µs and moves the grant. -/
  | witnessHbTimeout
  /-- WITNESS_FAULT_PULSE (R350). The witness receives FAULT from the granted controller and moves the grant. -/
  | witnessFaultPulse (c : Ctl)
  /-- WITNESS_SWAP_PULSE (R350). The witness receives SWAP and grants the other controller as well. -/
  | witnessSwapPulse (c : Ctl)
  /-- LEAD_HOME_EXPIRE (R370). The lead-return stability window expires and the lead return is announced. -/
  | leadHomeExpire
  /-- LEAD_ROLE_TAKE (R370). At B + 1,024 the controller sets its cluster role to lead. -/
  | leadRoleTake
  /-- PARENT_HOME_EXPIRE (R371). The parent-return window expires and the follower rejoins its home parent. -/
  | parentHomeExpire
  /-- POWER_ON_RESET (R387). A supply below threshold holds a power-on reset. -/
  | powerOnReset
  /-- RESET_N_ASSERT (R389). RESET_N asserted holds a system reset. -/
  | resetNAssert
  /-- SYS_RST_CMD (R389). A keyed go write to SYS_RST_CMD causes a software system reset. -/
  | sysRstCmd (ini : Initiator) (key : Byte)
  /-- SHIP_WAKE (R404). In the tick after ship clears, a system reset with cause SHIP_WAKE runs. -/
  | shipWake
  /-- PLL_LOCK (R392). The PLL locks after reset and TICK starts counting. -/
  | pllLock
  /-- FUSE_SENSE_DONE (R301). Fuse sensing completes, latching words, region states and the feature mask. -/
  | fuseSenseDone (readings : List FuseReading)
  /-- IMAGE_LOAD_DONE (R394). A slot's image load and checks complete, selecting it or trying the other. -/
  | imageLoadDone
  /-- BB_VALIDATION_DONE (R277). Both black-box slots are validated and a fresh box is reported. -/
  | bbValidationDone
  /-- PAIR_ROLE_WINDOW_EXPIRE (R399). The boot pairing window expires and the controller becomes active or standby. -/
  | pairRoleWindowExpire
  /-- BOOT (R400). Thread B starts at entry_b and boot completes. -/
  | boot
  /-- RUN (R402). SYS_PWR_CMD requests the RUN state. -/
  | run (ini : Initiator)
  /-- IDLE (R402). SYS_PWR_CMD requests the IDLE state. -/
  | idle (ini : Initiator)
  /-- SLEEP (R402). SYS_PWR_CMD requests the SLEEP state. -/
  | sleep (ini : Initiator)
  /-- SHIP (R402). SYS_PWR_CMD requests the SHIP state. -/
  | ship (ini : Initiator)
  /-- POWER_STATE (R402). At cycle 0 of the next tick a requested state is applied or refused. -/
  | powerState
  /-- ANALOG_SETTLED (R402). 20 ticks of analog settling end and the state becomes RUN. -/
  | analogSettled
  /-- SLEEP_WAKE (R403). An enabled wake source ends SLEEP and the state becomes IDLE. -/
  | sleepWake (src : Fin 8)
  /-- READ (R417). SPI READ returns words from the address space after wait nibbles. -/
  | read (a : Word) (n : Nat)
  /-- WRITE (R417). SPI WRITE queues 1 to 16 words for the address space. -/
  | write (a : Word) (ws : List Word)
  /-- STATUS (R417). SPI STATUS returns whether the write buffer is empty. -/
  | status
  /-- SPI_WRITE_APPLY (R417). Queued SPI words are applied on consecutive served cycles. -/
  | spiWriteApply
  /-- ILLEGAL_ENCODING (R71). The Stoker executes a word with an unassigned opcode or fn, an illegal field or a reserved-nonzero field and traps with cause 0x01. -/
  | illegalEncoding (th : Thread) (w : Word)
  /-- WITNESS_ALIVE_PULSE (R350). A controller in witness role receives an ALIVE heartbeat pulse; it grants the first controller to become available, and during a swap it withdraws the old grant at the new active's pulse. -/
  | witnessAlivePulse (c : Ctl)
  /-- RESET_N_RELEASE (R316). RESET_N is released; the controller samples ADDR[2:0] to set the TWI0 address and the reset ends, so PLL locking begins. -/
  | resetNRelease (straps : BitVec 3)
  /-- DRAFT_FRAME_INVALID (R197). A Draft receiver takes a frame that fails Manchester, sync or CRC, or has a reserved type, discards it and counts it in bad. -/
  | draftFrameInvalid (d : Fin 32) (codeOk : Bool) (w : BitVec 64)
  /-- STANDBY_FRAME_SEND (R352). At cycle 300 of every tick the standby starts its pair-link frame, carrying its flags, seq and the ack of the last frame applied. -/
  | standbyFrameSend
  /-- ARBITRATION_RETRY (R324). A controller port that lost arbitration sees a STOP on the bus and retries the whole transaction. -/
  | arbitrationRetry (i : Fin 3)
  deriving DecidableEq, Repr

end Sys2Proof
end

