-- ==== Sys2Proof/Decode.lean ====
section
/-! DEFINITION. The encodings of the Lerzia instructions (03_lerzia.md R70, R71): formats, decoder, encoder; and what the opcode
table's words spell (its rows give no bits). -/

namespace Sys2Proof

/-! ### Formats (R70) -/

def fOp (w : Word) : BitVec 6 := w.extractLsb' 26 6
def fRd (w : Word) : Reg := w.extractLsb' 21 5
def fRs1 (w : Word) : Reg := w.extractLsb' 16 5
def fRs2 (w : Word) : Reg := w.extractLsb' 11 5
def fFn (w : Word) : BitVec 11 := w.extractLsb' 0 11
def fImm (w : Word) : BitVec 16 := w.extractLsb' 0 16
def fOff (w : Word) : BitVec 21 := w.extractLsb' 0 21

/-- Format R. -/
def rForm (op : BitVec 6) (rd rs1 rs2 : Reg) (fn : BitVec 11) : Word := op ++ rd ++ rs1 ++ rs2 ++ fn
/-- Formats I, S and B: two register fields and 16 bits. -/
def iForm (op : BitVec 6) (a b : Reg) (imm : BitVec 16) : Word := op ++ a ++ b ++ imm
/-- Format J. -/
def jForm (rd : Reg) (off : BitVec 21) : Word := (0x26 : BitVec 6) ++ rd ++ off

/-- A field that names an FP register. -/
def fReg (f : FReg) : Reg := (0 : BitVec 1) ++ f
/-- The FP register that a field names; 16-31 are illegal. -/
def fpOf (r : Reg) : Option FReg := if r.getLsbD 4 then none else some (r.setWidth 4)

/-- The immediate of SHI: the count, and 0 SLLI, 1 SRLI, 2 SRAI above it (R73). -/
def shImm (k : BitVec 2) (sh : BitVec 5) : BitVec 16 := (0 : BitVec 9) ++ k ++ sh

/-! ### Decoder (R71) -/

/-- OP, by fn. -/
def decOp (th : Thread) (fn : Nat) (rd rs1 rs2 : Reg) : Option Instr :=
  match fn with
  | 0x000 => some (.add th rd rs1 rs2)
  | 0x001 => some (.sub th rd rs1 rs2)
  | 0x002 => some (.and th rd rs1 rs2)
  | 0x003 => some (.or th rd rs1 rs2)
  | 0x004 => some (.xor th rd rs1 rs2)
  | 0x005 => some (.sll th rd rs1 rs2)
  | 0x006 => some (.srl th rd rs1 rs2)
  | 0x007 => some (.sra th rd rs1 rs2)
  | 0x008 => some (.slt th rd rs1 rs2)
  | 0x009 => some (.sltu th rd rs1 rs2)
  | 0x00A => some (.min th rd rs1 rs2)
  | 0x00B => some (.max th rd rs1 rs2)
  | 0x00C => some (.minu th rd rs1 rs2)
  | 0x00D => some (.maxu th rd rs1 rs2)
  | 0x010 => some (.mul th rd rs1 rs2)
  | 0x011 => some (.mulh th rd rs1 rs2)
  | 0x012 => some (.mulhu th rd rs1 rs2)
  | 0x018 => some (.div th rd rs1 rs2)
  | 0x019 => some (.divu th rd rs1 rs2)
  | 0x01A => some (.rem th rd rs1 rs2)
  | 0x01B => some (.remu th rd rs1 rs2)
  | _ => none

/-- Three FP registers, or none where a field names no FP register. -/
def fp3 (a b c : Reg) (f : FReg → FReg → FReg → Instr) : Option Instr :=
  match fpOf a, fpOf b, fpOf c with
  | some x, some y, some z => some (f x y z)
  | _, _, _ => none

/-- FOP, by fn; an unused field must be 0. -/
def decFop (th : Thread) (fn : Nat) (rd rs1 rs2 : Reg) : Option Instr :=
  match fn with
  | 0x000 => fp3 rd rs1 rs2 fun d a b => .fadd th d a b
  | 0x001 => fp3 rd rs1 rs2 fun d a b => .fsub th d a b
  | 0x002 => fp3 rd rs1 rs2 fun d a b => .fmul th d a b
  | 0x003 => fp3 rd rs1 rs2 fun d a b => .fmac th d a b
  | 0x004 => fp3 rd rs1 rs2 fun d a b => .fdiv th d a b
  | 0x006 => fp3 rd rs1 rs2 fun d a b => .fmin th d a b
  | 0x007 => fp3 rd rs1 rs2 fun d a b => .fmax th d a b
  | 0x008 => fp3 rd rs1 rs2 fun d a b => .fclip th d a b
  | 0x005 => if rs2 = 0 then fp3 rd rs1 0 fun d a _ => .fsqrt th d a else none
  | 0x009 => if rs2 = 0 then fp3 rd rs1 0 fun d a _ => .fabs th d a else none
  | 0x00A => if rs2 = 0 then fp3 rd rs1 0 fun d a _ => .fneg th d a else none
  | 0x00B => if rs2 = 0 then fp3 rd rs1 0 fun d a _ => .fmov th d a else none
  | 0x010 => if rs2 = 0 then (fpOf rs1).map fun a => .fcvtws th rd a else none
  | 0x012 => if rs2 = 0 then (fpOf rs1).map fun a => .fmvxw th rd a else none
  | 0x011 => if rs2 = 0 then (fpOf rd).map fun d => .fcvtsw th d rs1 else none
  | 0x013 => if rs2 = 0 then (fpOf rd).map fun d => .fmvwx th d rs1 else none
  | 0x018 => fp3 0 rs1 rs2 fun _ a b => .feq th rd a b
  | 0x019 => fp3 0 rs1 rs2 fun _ a b => .flt th rd a b
  | 0x01A => fp3 0 rs1 rs2 fun _ a b => .fle th rd a b
  | _ => none

/-- SYS, by fn. -/
def decSys (th : Thread) (fn : Nat) (rd rs1 rs2 : Reg) : Option Instr :=
  match fn with
  | 0x000 => if rd = 0 ∧ rs1 = 0 ∧ rs2 = 0 then some (.yield th) else none
  | 0x001 => if rd = 0 ∧ rs2 = 0 then some (.twait th rs1) else none
  | 0x002 => if rs2 = 0 then some (.ewait th rd rs1) else none
  | 0x003 => if rs1 = 0 then some (.rdsr th rd rs2) else none
  | 0x004 => if rd = 0 then some (.wrsr th rs2 rs1) else none
  | 0x005 => if rd = 0 ∧ rs2 = 0 then some (.trap th rs1) else none
  | 0x006 => if rd = 0 ∧ rs1 = 0 ∧ rs2 = 0 then some (.rett th) else none
  | 0x007 => if rd = 0 ∧ rs1 = 0 ∧ rs2 = 0 then some (.wdkick th) else none
  | _ => none

/-- Unit operations of opcodes 0x33 to 0x38, by fn (R78). -/
def decUnit (th : Thread) (op fn : Nat) (rd rs1 rs2 : Reg) : Option Instr :=
  match op, fn with
  | 0x33, 0x000 => if rs1 = 0 then some (.fbr th rd rs2) else none
  | 0x33, 0x001 => some (.fbw th rd rs1 rs2)
  | 0x33, 0x002 => some (.fbwp th rd rs1 rs2)
  | 0x33, 0x003 => if rs1 = 0 then some (.fbst th rd rs2) else none
  | 0x33, 0x004 => if rs1 = 0 then some (.fbclr th rd rs2) else none
  | 0x34, 0x000 => some (.emint th rd rs1 rs2)
  | 0x34, 0x001 => some (.eburn th rd rs1 rs2)
  | 0x34, 0x002 => some (.egrant th rd rs1 rs2)
  | 0x34, 0x003 => some (.erevk th rd rs1 rs2)
  | 0x34, 0x004 => some (.exfer th rd rs1 rs2)
  | 0x34, 0x005 => if rs1 = 0 ∧ rs2 = 0 then some (.eqry th rd) else none
  | 0x35, 0x000 => if rs2 = 0 then some (.tmeas th rd rs1) else none
  | 0x35, 0x001 => if rs2 = 0 then some (.tres th rd rs1) else none
  | 0x36, 0x000 => some (.loge th rd rs1 rs2)
  | 0x37, 0x000 => some (.nvwr th rd rs1 rs2)
  | 0x37, 0x001 => if rs1 = 0 ∧ rs2 = 0 then some (.nvq th rd) else none
  | 0x38, 0x000 => some (.ssend th rd rs1 rs2)
  | 0x38, 0x001 => some (.srecv th rd rs1 rs2)
  | 0x38, 0x002 => some (.pmir th rd rs1 rs2)
  | _, _ => none

/-- SHI: the kind of shift (R73). -/
def decShi (th : Thread) (rd rs1 : Reg) (imm : BitVec 16) : Option Instr :=
  let sh : BitVec 5 := imm.setWidth 5
  match (imm.extractLsb' 5 11).toNat with
  | 0 => some (.slli th rd rs1 sh)
  | 1 => some (.srli th rd rs1 sh)
  | 2 => some (.srai th rd rs1 sh)
  | _ => none

/-- An instruction word; `none` is an illegal encoding (R70, R71, R74). -/
def decode (th : Thread) (w : Word) : Option Instr :=
  let a := fRd w
  let b := fRs1 w
  let i := fImm w
  match (fOp w).toNat with
  | 0x01 => decOp th (fFn w).toNat a b (fRs2 w)
  | 0x02 => some (.addi th a b i)
  | 0x03 => some (.andi th a b i)
  | 0x04 => some (.ori th a b i)
  | 0x05 => some (.xori th a b i)
  | 0x06 => some (.slti th a b i)
  | 0x07 => some (.sltiu th a b i)
  | 0x08 => decShi th a b i
  | 0x09 => if b = 0 then some (.lui th a i) else none
  | 0x10 => some (.lw th a b i)
  | 0x11 => some (.lh th a b i)
  | 0x12 => some (.lhu th a b i)
  | 0x13 => some (.lb th a b i)
  | 0x14 => some (.lbu th a b i)
  | 0x15 => some (.sw th a b i)
  | 0x16 => some (.sh th a b i)
  | 0x17 => some (.sb th a b i)
  | 0x18 => some (.ldp th a b i)
  | 0x19 => some (.stp th a b i)
  | 0x1A => if a.getLsbD 0 then none else some (.ldpd th a b i)
  | 0x1B => if a.getLsbD 0 then none else some (.stpd th a b i)
  | 0x1C => (fpOf a).map fun f => .flw th f b i
  | 0x1D => (fpOf a).map fun f => .fsw th f b i
  | 0x20 => some (.beq th a b i)
  | 0x21 => some (.bne th a b i)
  | 0x22 => some (.blt th a b i)
  | 0x23 => some (.bge th a b i)
  | 0x24 => some (.bltu th a b i)
  | 0x25 => some (.bgeu th a b i)
  | 0x26 => some (.jal th a (fOff w))
  | 0x27 => some (.jalr th a b i)
  | 0x28 => decFop th (fFn w).toNat a b (fRs2 w)
  | 0x30 => decSys th (fFn w).toNat a b (fRs2 w)
  | 0x31 => some (.tstep th a b i)
  | 0x32 =>
    if fFn w = 0 then
      match fpOf a, fpOf b with
      | some d, some x => some (.tcurv th d x (fRs2 w))
      | _, _ => none
    else none
  | op => decUnit th op (fFn w).toNat a b (fRs2 w)

/-! ### Encoder -/

/-- The word of an instruction; `none` for the commands that are no Lerzia instruction. -/
def encode (i : Instr) : Option Word :=
  match i with
  | .add _ rd rs1 rs2 => some (rForm 0x01 rd rs1 rs2 0x000)
  | .sub _ rd rs1 rs2 => some (rForm 0x01 rd rs1 rs2 0x001)
  | .and _ rd rs1 rs2 => some (rForm 0x01 rd rs1 rs2 0x002)
  | .or _ rd rs1 rs2 => some (rForm 0x01 rd rs1 rs2 0x003)
  | .xor _ rd rs1 rs2 => some (rForm 0x01 rd rs1 rs2 0x004)
  | .sll _ rd rs1 rs2 => some (rForm 0x01 rd rs1 rs2 0x005)
  | .srl _ rd rs1 rs2 => some (rForm 0x01 rd rs1 rs2 0x006)
  | .sra _ rd rs1 rs2 => some (rForm 0x01 rd rs1 rs2 0x007)
  | .slt _ rd rs1 rs2 => some (rForm 0x01 rd rs1 rs2 0x008)
  | .sltu _ rd rs1 rs2 => some (rForm 0x01 rd rs1 rs2 0x009)
  | .min _ rd rs1 rs2 => some (rForm 0x01 rd rs1 rs2 0x00A)
  | .max _ rd rs1 rs2 => some (rForm 0x01 rd rs1 rs2 0x00B)
  | .minu _ rd rs1 rs2 => some (rForm 0x01 rd rs1 rs2 0x00C)
  | .maxu _ rd rs1 rs2 => some (rForm 0x01 rd rs1 rs2 0x00D)
  | .mul _ rd rs1 rs2 => some (rForm 0x01 rd rs1 rs2 0x010)
  | .mulh _ rd rs1 rs2 => some (rForm 0x01 rd rs1 rs2 0x011)
  | .mulhu _ rd rs1 rs2 => some (rForm 0x01 rd rs1 rs2 0x012)
  | .div _ rd rs1 rs2 => some (rForm 0x01 rd rs1 rs2 0x018)
  | .divu _ rd rs1 rs2 => some (rForm 0x01 rd rs1 rs2 0x019)
  | .rem _ rd rs1 rs2 => some (rForm 0x01 rd rs1 rs2 0x01A)
  | .remu _ rd rs1 rs2 => some (rForm 0x01 rd rs1 rs2 0x01B)
  | .addi _ rd rs1 imm => some (iForm 0x02 rd rs1 imm)
  | .andi _ rd rs1 imm => some (iForm 0x03 rd rs1 imm)
  | .ori _ rd rs1 imm => some (iForm 0x04 rd rs1 imm)
  | .xori _ rd rs1 imm => some (iForm 0x05 rd rs1 imm)
  | .slti _ rd rs1 imm => some (iForm 0x06 rd rs1 imm)
  | .sltiu _ rd rs1 imm => some (iForm 0x07 rd rs1 imm)
  | .slli _ rd rs1 sh => some (iForm 0x08 rd rs1 (shImm 0 sh))
  | .srli _ rd rs1 sh => some (iForm 0x08 rd rs1 (shImm 1 sh))
  | .srai _ rd rs1 sh => some (iForm 0x08 rd rs1 (shImm 2 sh))
  | .lui _ rd imm => some (iForm 0x09 rd 0 imm)
  | .lw _ rd rs1 imm => some (iForm 0x10 rd rs1 imm)
  | .lh _ rd rs1 imm => some (iForm 0x11 rd rs1 imm)
  | .lhu _ rd rs1 imm => some (iForm 0x12 rd rs1 imm)
  | .lb _ rd rs1 imm => some (iForm 0x13 rd rs1 imm)
  | .lbu _ rd rs1 imm => some (iForm 0x14 rd rs1 imm)
  | .sw _ rs2 rs1 imm => some (iForm 0x15 rs2 rs1 imm)
  | .sh _ rs2 rs1 imm => some (iForm 0x16 rs2 rs1 imm)
  | .sb _ rs2 rs1 imm => some (iForm 0x17 rs2 rs1 imm)
  | .flw _ fd rs1 imm => some (iForm 0x1C (fReg fd) rs1 imm)
  | .fsw _ fs2 rs1 imm => some (iForm 0x1D (fReg fs2) rs1 imm)
  | .ldp _ rd rs1 imm => some (iForm 0x18 rd rs1 imm)
  | .stp _ rs2 rs1 imm => some (iForm 0x19 rs2 rs1 imm)
  | .ldpd _ rd rs1 imm => some (iForm 0x1A rd rs1 imm)
  | .stpd _ rs2 rs1 imm => some (iForm 0x1B rs2 rs1 imm)
  | .beq _ rs1 rs2 off => some (iForm 0x20 rs1 rs2 off)
  | .bne _ rs1 rs2 off => some (iForm 0x21 rs1 rs2 off)
  | .blt _ rs1 rs2 off => some (iForm 0x22 rs1 rs2 off)
  | .bge _ rs1 rs2 off => some (iForm 0x23 rs1 rs2 off)
  | .bltu _ rs1 rs2 off => some (iForm 0x24 rs1 rs2 off)
  | .bgeu _ rs1 rs2 off => some (iForm 0x25 rs1 rs2 off)
  | .jal _ rd off => some (jForm rd off)
  | .jalr _ rd rs1 imm => some (iForm 0x27 rd rs1 imm)
  | .fadd _ fd fs1 fs2 => some (rForm 0x28 (fReg fd) (fReg fs1) (fReg fs2) 0x000)
  | .fsub _ fd fs1 fs2 => some (rForm 0x28 (fReg fd) (fReg fs1) (fReg fs2) 0x001)
  | .fmul _ fd fs1 fs2 => some (rForm 0x28 (fReg fd) (fReg fs1) (fReg fs2) 0x002)
  | .fmac _ fd fs1 fs2 => some (rForm 0x28 (fReg fd) (fReg fs1) (fReg fs2) 0x003)
  | .fdiv _ fd fs1 fs2 => some (rForm 0x28 (fReg fd) (fReg fs1) (fReg fs2) 0x004)
  | .fmin _ fd fs1 fs2 => some (rForm 0x28 (fReg fd) (fReg fs1) (fReg fs2) 0x006)
  | .fmax _ fd fs1 fs2 => some (rForm 0x28 (fReg fd) (fReg fs1) (fReg fs2) 0x007)
  | .fclip _ fd fs1 fs2 => some (rForm 0x28 (fReg fd) (fReg fs1) (fReg fs2) 0x008)
  | .fsqrt _ fd fs1 => some (rForm 0x28 (fReg fd) (fReg fs1) 0 0x005)
  | .fabs _ fd fs1 => some (rForm 0x28 (fReg fd) (fReg fs1) 0 0x009)
  | .fneg _ fd fs1 => some (rForm 0x28 (fReg fd) (fReg fs1) 0 0x00A)
  | .fmov _ fd fs1 => some (rForm 0x28 (fReg fd) (fReg fs1) 0 0x00B)
  | .fcvtws _ rd fs1 => some (rForm 0x28 rd (fReg fs1) 0 0x010)
  | .fcvtsw _ fd rs1 => some (rForm 0x28 (fReg fd) rs1 0 0x011)
  | .fmvxw _ rd fs1 => some (rForm 0x28 rd (fReg fs1) 0 0x012)
  | .fmvwx _ fd rs1 => some (rForm 0x28 (fReg fd) rs1 0 0x013)
  | .feq _ rd fs1 fs2 => some (rForm 0x28 rd (fReg fs1) (fReg fs2) 0x018)
  | .flt _ rd fs1 fs2 => some (rForm 0x28 rd (fReg fs1) (fReg fs2) 0x019)
  | .fle _ rd fs1 fs2 => some (rForm 0x28 rd (fReg fs1) (fReg fs2) 0x01A)
  | .yield _ => some (rForm 0x30 0 0 0 0x000)
  | .twait _ rs1 => some (rForm 0x30 0 rs1 0 0x001)
  | .ewait _ rd rs1 => some (rForm 0x30 rd rs1 0 0x002)
  | .rdsr _ rd sr => some (rForm 0x30 rd 0 sr 0x003)
  | .wrsr _ sr rs1 => some (rForm 0x30 0 rs1 sr 0x004)
  | .trap _ rs1 => some (rForm 0x30 0 rs1 0 0x005)
  | .rett _ => some (rForm 0x30 0 0 0 0x006)
  | .wdkick _ => some (rForm 0x30 0 0 0 0x007)
  | .tstep _ rd rs1 imm => some (iForm 0x31 rd rs1 imm)
  | .tcurv _ fd fs1 rs2 => some (rForm 0x32 (fReg fd) (fReg fs1) rs2 0x000)
  | .fbr _ rd rs2 => some (rForm 0x33 rd 0 rs2 0x000)
  | .fbw _ rd rs1 rs2 => some (rForm 0x33 rd rs1 rs2 0x001)
  | .fbwp _ rd rs1 rs2 => some (rForm 0x33 rd rs1 rs2 0x002)
  | .fbst _ rd rs2 => some (rForm 0x33 rd 0 rs2 0x003)
  | .fbclr _ rd rs2 => some (rForm 0x33 rd 0 rs2 0x004)
  | .emint _ rd rs1 rs2 => some (rForm 0x34 rd rs1 rs2 0x000)
  | .eburn _ rd rs1 rs2 => some (rForm 0x34 rd rs1 rs2 0x001)
  | .egrant _ rd rs1 rs2 => some (rForm 0x34 rd rs1 rs2 0x002)
  | .erevk _ rd rs1 rs2 => some (rForm 0x34 rd rs1 rs2 0x003)
  | .exfer _ rd rs1 rs2 => some (rForm 0x34 rd rs1 rs2 0x004)
  | .eqry _ rd => some (rForm 0x34 rd 0 0 0x005)
  | .tmeas _ rd rs1 => some (rForm 0x35 rd rs1 0 0x000)
  | .tres _ rd rs1 => some (rForm 0x35 rd rs1 0 0x001)
  | .loge _ rd rs1 rs2 => some (rForm 0x36 rd rs1 rs2 0x000)
  | .nvwr _ rd rs1 rs2 => some (rForm 0x37 rd rs1 rs2 0x000)
  | .nvq _ rd => some (rForm 0x37 rd 0 0 0x001)
  | .ssend _ rd rs1 rs2 => some (rForm 0x38 rd rs1 rs2 0x000)
  | .srecv _ rd rs1 rs2 => some (rForm 0x38 rd rs1 rs2 0x001)
  | .pmir _ rd rs1 rs2 => some (rForm 0x38 rd rs1 rs2 0x002)
  | _ => none

/-- The thread that a Lerzia instruction is given to. -/
def threadOf (i : Instr) : Option Thread :=
  match i with
  | .add th _ _ _ => some th
  | .sub th _ _ _ => some th
  | .and th _ _ _ => some th
  | .or th _ _ _ => some th
  | .xor th _ _ _ => some th
  | .sll th _ _ _ => some th
  | .srl th _ _ _ => some th
  | .sra th _ _ _ => some th
  | .slt th _ _ _ => some th
  | .sltu th _ _ _ => some th
  | .min th _ _ _ => some th
  | .max th _ _ _ => some th
  | .minu th _ _ _ => some th
  | .maxu th _ _ _ => some th
  | .mul th _ _ _ => some th
  | .mulh th _ _ _ => some th
  | .mulhu th _ _ _ => some th
  | .div th _ _ _ => some th
  | .divu th _ _ _ => some th
  | .rem th _ _ _ => some th
  | .remu th _ _ _ => some th
  | .addi th _ _ _ => some th
  | .andi th _ _ _ => some th
  | .ori th _ _ _ => some th
  | .xori th _ _ _ => some th
  | .slti th _ _ _ => some th
  | .sltiu th _ _ _ => some th
  | .slli th _ _ _ => some th
  | .srli th _ _ _ => some th
  | .srai th _ _ _ => some th
  | .lui th _ _ => some th
  | .lw th _ _ _ => some th
  | .lh th _ _ _ => some th
  | .lhu th _ _ _ => some th
  | .lb th _ _ _ => some th
  | .lbu th _ _ _ => some th
  | .sw th _ _ _ => some th
  | .sh th _ _ _ => some th
  | .sb th _ _ _ => some th
  | .flw th _ _ _ => some th
  | .fsw th _ _ _ => some th
  | .ldp th _ _ _ => some th
  | .stp th _ _ _ => some th
  | .ldpd th _ _ _ => some th
  | .stpd th _ _ _ => some th
  | .beq th _ _ _ => some th
  | .bne th _ _ _ => some th
  | .blt th _ _ _ => some th
  | .bge th _ _ _ => some th
  | .bltu th _ _ _ => some th
  | .bgeu th _ _ _ => some th
  | .jal th _ _ => some th
  | .jalr th _ _ _ => some th
  | .fadd th _ _ _ => some th
  | .fsub th _ _ _ => some th
  | .fmul th _ _ _ => some th
  | .fmac th _ _ _ => some th
  | .fdiv th _ _ _ => some th
  | .fmin th _ _ _ => some th
  | .fmax th _ _ _ => some th
  | .fclip th _ _ _ => some th
  | .fsqrt th _ _ => some th
  | .fabs th _ _ => some th
  | .fneg th _ _ => some th
  | .fmov th _ _ => some th
  | .fcvtws th _ _ => some th
  | .fcvtsw th _ _ => some th
  | .fmvxw th _ _ => some th
  | .fmvwx th _ _ => some th
  | .feq th _ _ _ => some th
  | .flt th _ _ _ => some th
  | .fle th _ _ _ => some th
  | .yield th => some th
  | .twait th _ => some th
  | .ewait th _ _ => some th
  | .rdsr th _ _ => some th
  | .wrsr th _ _ => some th
  | .trap th _ => some th
  | .rett th => some th
  | .wdkick th => some th
  | .tstep th _ _ _ => some th
  | .tcurv th _ _ _ => some th
  | .fbr th _ _ => some th
  | .fbw th _ _ _ => some th
  | .fbwp th _ _ _ => some th
  | .fbst th _ _ => some th
  | .fbclr th _ _ => some th
  | .emint th _ _ _ => some th
  | .eburn th _ _ _ => some th
  | .egrant th _ _ _ => some th
  | .erevk th _ _ _ => some th
  | .exfer th _ _ _ => some th
  | .eqry th _ => some th
  | .tmeas th _ _ => some th
  | .tres th _ _ => some th
  | .loge th _ _ _ => some th
  | .nvwr th _ _ _ => some th
  | .nvq th _ => some th
  | .ssend th _ _ _ => some th
  | .srecv th _ _ _ => some th
  | .pmir th _ _ _ => some th
  | _ => none

/-- The instruction's word, 0 where there is none: tval of causes 0x01 and 0x02 (R81). -/
def wordOf (i : Instr) : Word := (encode i).getD 0

/-- The command that a word of the opcode table spells: its rows give no bits, so none (notes/assumptions/3.md). -/
def decodeTableWord (_nbits _w : Nat) : Option Instr := none

end Sys2Proof
end

