-- ==== Sys2Proof/Machine/StateSys.lean ====
section
/-! DEFINITION. State of the system block, clock, time base, boot, power states and recorder
(01_architecture.md, 02_tick.md, 12_recorder.md, 19_startup.md, 21_address_map.md). Every default is the reset value. -/

namespace Sys2Proof.Machine

/-- SYS_ERR, SYS_ECC_STAT and the per-initiator SYS_TICK_HI latches (21 R421, 01 R29-R30, 02 R45). -/
structure SysSt where
  /-- SYS_ERR: [31] unit_absent, [30] pair_mismatch, [29] locked_write, [28] unmapped. -/
  err : Word := 0
  errAddr : Word := 0
  eccUncorr : Bool := false
  eccCorr : BitVec 16 := 0
  eccAddr : Word := 0
  tickHi : Vector Word 4 := Vector.replicate 4 0
  /-- the word that the last access with a row of its own returned (the model's own field) -/
  rdata : Word := 0
  deriving DecidableEq, Repr

/-- SYS_CLK_STAT and the holdover timer (01 R32-R35). -/
structure ClkSt where
  holdoverExp : Bool := false
  linkLost : Bool := false
  refLost : Bool := false
  port : BitVec 2 := 0
  holdover : Bool := false
  /-- current source: false REFCLK, true link -/
  mode : Bool := false
  refOk : Bool := false
  pllLock : Bool := false
  /-- elapsed tick at which holdover was entered; none once it has run out -/
  holdStart : Option Nat := none
  /-- link mode was left because the recovered clock failed, and src has stayed 1: the return waits for 64 ticks (02 R52) -/
  fell : Bool := false
  /-- the elapsed tick in which it failed -/
  fellAt : Nat := 0
  deriving DecidableEq, Repr

/-- TICK, the hall epoch and hall time (02_tick.md). -/
structure TimeSt where
  tick : BitVec 48 := 0
  epoch : BitVec 16 := 0
  hops : BitVec 4 := 0
  timeLost : Bool := false
  stepPend : Bool := false
  countMismatch : Bool := false
  slewing : Bool := false
  freeRun : Bool := true
  locked : Bool := false
  ofs : Word := 0
  hopDly : Word := 0
  /-- whole ticks N and remainder r (ps) of the last offset (R52) -/
  ofsN : Int := 0
  ofsR : Int := 0
  /-- epoch and TICK that the parent sent last -/
  parEpoch : BitVec 16 := 0
  parTick : BitVec 48 := 0
  /-- consecutive updates with |ofs| at most 3 ns (R49) -/
  lockRun : Nat := 0
  /-- elapsed tick of the parent's last valid TIME message, or of the start of following (R51) -/
  lastTime : Nat := 0
  /-- epoch requested by set_epoch, due at the next slow-frame boundary (R46) -/
  epochReq : Option (BitVec 16) := none
  /-- the PLL has locked and no tick has begun since: TICK counts from 0 at the next (19 R392) -/
  fresh : Bool := false
  /-- TICK has wrapped and TICK_WRAP has not been given yet (R46) -/
  wrapDue : Bool := false
  /-- a slow-frame boundary whose SLOW_FRAME_BOUNDARY has not been given yet (R28) -/
  sfDue : Bool := false
  /-- this tick is the first of a slow frame (the flag of R28) -/
  sf : Bool := false
  /-- OUTPUT_STROBE and SHADOW_COMMIT of this tick have not been given yet (R39) -/
  strobeDue : Bool := false
  commitDue : Bool := false
  deriving DecidableEq, Repr

/-- The steps of the boot path (19 R392): what is awaited. -/
inductive BootStage where
  | pll | fuses | image | blackBox | role | start | done | halted
  deriving DecidableEq, Repr

/-- SYS_RST_CAUSE, SYS_BOOT_STAT, SYS_BOOT_SEQ and the loaded image's header (19 R389-R400). -/
structure BootSt where
  stage : BootStage := .pll
  /-- a system reset is held by RESET_N (R388) -/
  held : Bool := false
  /-- RESET_N was released while its reset waited (R388, R391) -/
  freed : Bool := false
  /-- a system reset that waits for a page write or an OTP attempt (R391): its cause -/
  rstPend : Option (BitVec 2) := none
  cause : BitVec 2 := 0
  sysCnt : Byte := 0
  halt : Bool := false
  slot : Bool := false
  reasonA : BitVec 4 := 0
  reasonB : BitVec 4 := 0
  ticks : BitVec 20 := 0
  seq : Word := 0
  entryB : Word := 0x00100000
  entryR : Word := 0x00100000
  imgCrc : Word := 0
  /-- the slot that has failed in this boot (R395): false A, true B -/
  failed : Option Bool := none
  /-- end of the pair-role window (R399) -/
  roleEnd : Option Nat := none
  /-- the elapsed tick of the last boot step but the start of thread B (R400) -/
  lastStep : Nat := 0
  deriving DecidableEq, Repr

/-- Power states (19 R401-R403). -/
structure PwrSt where
  state : BitVec 2 := 0
  busy : Bool := false
  wake : Byte := 0
  /-- the state requested, and the elapsed tick of the request -/
  req : Option (BitVec 2 × Nat) := none
  /-- the byte address of the access that requested it (21 R421) -/
  reqAt : Nat := 0x94
  settleEnd : Nat := 0
  /-- slow-frame boundaries left of the timed wake -/
  sfLeft : Option Nat := none
  /-- wake sources detected in this tick, and in an earlier one -/
  wakeNew : Byte := 0
  wakeDue : Byte := 0
  deriving DecidableEq, Repr

/-- Pins as sampled at cycle 0, and the hold-up ADC code (02 R39, 13 R286). -/
structure PinSt where
  acfail : BitVec 2 := 0
  damperIn : Bool := false
  witGrant : Bool := false
  pfail : Bool := false
  chgdet : Bool := false
  holdup : BitVec 12 := 0
  deriving DecidableEq, Repr

/-- Where a record comes from; the order of staging within one cycle (12 R267). -/
inductive Origin where
  | summary | device | F | B
  deriving DecidableEq, Repr

/-- A record posted and not yet staged; more than one payload is a series (12 R424). -/
structure Posted where
  org : Origin
  code : BitVec 12
  sev : BitVec 3
  stamp : BitVec 48
  payloads : List (List Word)
  /-- the reserved sequence number of a summary -/
  sumSeq : Option (BitVec 16) := none
  deriving DecidableEq, Repr

/-- A staged record: its bytes in the ring's layout, and the evictions decided for it (12 R267, R271). -/
structure Staged where
  bytes : List Byte
  sev : BitVec 3
  seq : BitVec 16
  evict : Nat
  deriving DecidableEq, Repr

/-- A record, pad or filler in the ring: `pos` counts bytes from power-on, its offset is `pos % 262144`. -/
structure RingEnt where
  pos : Nat
  len : Nat
  sev : BitVec 3
  real : Bool
  seq : BitVec 16 := 0
  deriving DecidableEq, Repr

/-- The window of a rate-limit entry (12 R268). -/
structure RateWin where
  isOpen : Bool := false
  stop : Nat := 0
  stored : Nat := 0
  supp : Nat := 0
  reserved : BitVec 16 := 0
  first : BitVec 48 := 0
  last : BitVec 48 := 0
  sev : BitVec 3 := 0
  deriving DecidableEq, Repr

/-- A summary that is due at cycle 0 of tick `due` (12 R268, R269). -/
structure OwedSummary where
  entry : Fin 64
  due : Nat
  code : BitVec 12
  sev : BitVec 3
  supp : Nat
  reserved : BitVec 16
  first : BitVec 48
  last : BitVec 48
  deriving DecidableEq, Repr

/-- The black box (12 R275-R277). -/
structure BbSt where
  busy : Bool := false
  finished : Bool := false
  skipped : Bool := false
  fresh : Bool := false
  valid : Bool := false
  slot : Bool := false
  pages : BitVec 12 := 0
  seq : Word := 0
  /-- PFAIL_N has been sampled deasserted since it was first sampled asserted last -/
  armed : Bool := true
  /-- the commit's page writes not yet done: page index and bytes, in order -/
  queue : List (Nat × List Byte) := []
  /-- the seal has been written, and BB_DONE is due -/
  sealDone : Bool := false
  /-- slot, sequence and log pages of the commit in progress -/
  cSlot : Bool := false
  cSeq : Word := 0
  cPages : BitVec 12 := 0
  /-- a consumed-word write is owed to this page (R277) -/
  consumeDue : Option Nat := none
  deriving DecidableEq, Repr

/-- The recorder (12_recorder.md). -/
structure LogSt where
  seq : BitVec 16 := 0
  head : Nat := 0
  tail : Nat := 0
  rel : Nat := 0
  ents : List RingEnt := []
  staged : List Staged := []
  posted : List Posted := []
  /-- records posted in cycle `heldAt` of this tick, which stays open for its other rows (R267, R269) -/
  held : List Posted := []
  heldAt : Nat := 0
  drop : Vector Word 8 := Vector.replicate 8 0
  supp : Word := 0
  evict : Word := 0
  full : Bool := false
  relErr : Bool := false
  win : Vector RateWin 64 := Vector.replicate 64 {}
  owed : List OwedSummary := []
  /-- a record was dropped since the last 0x055 (R272) -/
  lossDue : Bool := false
  bb : BbSt := {}
  deriving DecidableEq, Repr

end Sys2Proof.Machine
end

