-- ==== Sys2Proof/Machine/StateCore.lean ====
section
/-! DEFINITION. State of the Stoker and of the sequencer (03_lerzia.md, 04_tables.md). -/

namespace Sys2Proof.Machine

/-- The registers of one hardware thread (03 R56, R63, R64). -/
structure ThreadSt where
  g : Vector Word 32 := Vector.replicate 32 0
  f : Vector Word 16 := Vector.replicate 16 0
  pc : Word := 0x00100000
  tvec : Word := 0x00100000
  tpc : Word := 0
  tcause : Word := 0
  tval : Word := 0
  fstat : BitVec 6 := 0
  intrap : Bool := false
  deriving DecidableEq, Repr

/-- What thread B does (03 R61, R77, R80, R83). -/
inductive BRun where
  | notStarted
  | running
  | twait (stop : Nat)
  | ewait (rd : Reg) (mask : BitVec 12)
  | halted
  deriving DecidableEq, Repr

/-- The Stoker (03_lerzia.md), its frame status and the watchdog counter. -/
structure StokerSt where
  thF : ThreadSt := {}
  thB : ThreadSt := {}
  fentry : Word := 0x00100000
  evpend : BitVec 12 := 0
  /-- the elapsed tick and cycle in which events last arose, those events, and evpend before them (R80) -/
  evAt : Nat × Nat := (0, 0)
  evNew : BitVec 12 := 0
  evWas : BitVec 12 := 0
  /-- status.sf and status.povr of thread F -/
  sf : Bool := false
  povr : Bool := false
  /-- the slice of this tick is in progress -/
  fLive : Bool := false
  /-- the last slice was preempted or ended in a double trap (read as povr at the next wake) -/
  fOver : Bool := false
  /-- thread F overran in this tick: its shadow writes are discarded at the commit (01 R23) -/
  fDiscard : Bool := false
  /-- ovr_consec reached ovr_limit in this tick; the safe state is due at cycle 540 (R86) -/
  limitDue : Bool := false
  fHalted : Bool := false
  b : BRun := .notStarted
  /-- thread B is clock-gated by SLEEP (19 R401) -/
  bGated : Bool := false
  ovrTotal : BitVec 16 := 0
  ovrConsec : Byte := 0
  wdogExp : Bool := false
  fDtrap : Bool := false
  safe : Bool := false
  wdogCnt : Nat := 0
  /-- the soft stop of the safe state is due at this tick's commit (R87) -/
  softDue : Bool := false
  /-- the hard stop of the safe state is due at cycle 540 (R87) -/
  hardDue : Bool := false
  /-- the watchdog reached 0 at this boundary and WDOG_EXPIRED has not been given (R89) -/
  wdogDue : Bool := false
  deriving DecidableEq, Repr

/-- An installed table (04 R95). -/
structure Tbl where
  typ : BitVec 3
  id : Byte
  addr : Nat
  len : Nat
  version : Half
  deriving DecidableEq, Repr

/-- A machine's state bits (04 SEQ_MST, SEQ_MEV). -/
structure MachSt where
  fault : Bool := false
  state : BitVec 5 := 0
  ev : Half := 0
  deriving DecidableEq, Repr

/-- A sequencer timer (04 R108): `stop` is the elapsed tick of expiry in ticks, `left` the boundaries left in slow frames. -/
structure TimerSt where
  run : Bool := false
  unit : Bool := false
  exp : Bool := false
  stop : Nat := 0
  left : Nat := 0
  deriving DecidableEq, Repr

/-- An install job (04 R96-R98). -/
structure InstJob where
  addr : Nat
  len : Nat
  keep : Bool
  deriving DecidableEq, Repr

/-- What waits for the commit (04 R98, R100): an installation, or the removal of a type and id. -/
inductive SeqPend where
  | install (j : InstJob)
  | remove (typ : BitVec 3) (id : Byte)
  deriving DecidableEq, Repr

/-- The sequencer (04_tables.md). -/
structure SeqSt where
  result : BitVec 4 := 0
  /-- validation in progress -/
  job : Option InstJob := none
  /-- what waits for the commit; true once that commit has come -/
  pend : List (SeqPend × Bool) := []
  tbls : List Tbl := []
  mach : Vector MachSt 64 := Vector.replicate 64 {}
  tmr : Vector TimerSt 128 := Vector.replicate 128 {}
  deriving DecidableEq, Repr

end Sys2Proof.Machine
end

