-- ==== Sys2Proof/Machine/StateLoop.lean ====
section
/-! DEFINITION. State of the loop path: sense channels (21 R422), Firebox (05, 06), phases and rails (07), Draft manager (08). -/

namespace Sys2Proof.Machine

/-- Sense channels (02 R41, 21 R422). -/
structure SnsSt where
  raw : Vector (BitVec 14) 96 := Vector.replicate 96 0
  /-- scaled sample delivered last (of this tick once its conversion has ended) -/
  sample : Vector Word 96 := Vector.replicate 96 0
  /-- channels whose conversion of this tick has been delivered (02 R42) -/
  seen : BitVec 96 := 0
  /-- SNS_VAL: readable from the strobe -/
  val : Vector Word 96 := Vector.replicate 96 0
  deriving DecidableEq, Repr

/-- Why a context primes in its next computing tick (06 R157). -/
inductive Prime where
  | no | enabled | rearmed | lawChanged
  | resume (u : Word)
  deriving DecidableEq, Repr

/-- One Firebox context (05 FBX_CST, R135; 06 R141-R158). -/
structure CtxSt where
  fault : Bool := false
  cause : BitVec 3 := 0
  act : BitVec 2 := 0
  clampHi : Bool := false
  clampLo : Bool := false
  rate : Bool := false
  set : BitVec 3 := 0
  setChg : Bool := false
  feRun : Bool := false
  feTicks : BitVec 16 := 0
  /-- tick in which the following-error window opened -/
  feOpen : BitVec 48 := 0
  /-- the context has computed in this tick; in the tick before -/
  ran : Bool := false
  ranPrev : Bool := false
  /-- outputs of this tick (computed, held or frozen); outputs released at the last strobe -/
  out : Vector Word 8 := Vector.replicate 8 0
  rel : Vector Word 8 := Vector.replicate 8 0
  /-- the fault began in this tick: CONST is taken at its commit under FREE (R136) -/
  fresh : Bool := false
  e1 : Word := 0
  e2 : Word := 0
  w1 : Word := 0
  w2 : Word := 0
  w3 : Word := 0
  v1 : Word := 0
  v2 : Word := 0
  v3 : Word := 0
  /-- transfer terms for the next computing tick (R158) -/
  oL : Option Word := none
  oN : Option Word := none
  prime : Prime := .no
  /-- re-arm requests of this tick, by initiator (R137) -/
  rearm : List Initiator := []
  /-- TRAJ and ACFF words, written by hardware only (R119) -/
  traj : Word := 0
  acff : Word := 0
  /-- FBST and FBX_CST as readable since the last strobe (01 "Data paths", 02 R39) -/
  shown : Word := 0
  deriving DecidableEq, Repr

/-- An import register (05 R134). -/
structure ImpSt where
  val : Word := 0
  never : Bool := true
  src : BitVec 14 := 0
  age : BitVec 16 := 0
  deriving DecidableEq, Repr

/-- The Firebox (05_firebox.md). -/
structure FbxSt where
  rejRule : BitVec 4 := 0
  schedRej : Bool := false
  frozen : Bool := false
  halted : Bool := false
  ctx : Vector CtxSt 128 := Vector.replicate 128 {}
  imp : Vector ImpSt 32 := Vector.replicate 32 {}
  /-- export messages received and not yet latched: source, pair, values; latest last -/
  impIn : List (Nat × BitVec 14 × Fin 16 × Word × Word) := []
  sout : Vector (Vector Word 8) 4 := Vector.replicate 4 (Vector.replicate 8 0)
  xhat : Vector (Vector Word 8) 4 := Vector.replicate 4 (Vector.replicate 8 0)
  /-- x̂ as of the tick before, for a unit whose context faults (R135): next estimates of this tick -/
  xnext : Vector (Option (Vector Word 8)) 4 := Vector.replicate 4 none
  /-- the frozen outputs await the first strobe after the safe state (R87): elapsed tick from which nothing computes -/
  freezeFrom : Option Nat := none
  deriving DecidableEq, Repr

/-- One phase (07_phases.md). -/
structure PhaseSt where
  sw : Bool := false
  dir : Bool := false
  burned : Bool := false
  fault : Bool := false
  cause : BitVec 4 := 8
  openCnt : BitVec 6 := 0
  cbc : BitVec 16 := 0
  aoc : BitVec 16 := 0
  eff : BitVec 12 := 2048
  raw : BitVec 12 := 2048
  /-- rail whose membership the phase has since that rail's last SOFT_START entry (R169) -/
  rail : Option (Fin 16) := none
  shed : Bool := false
  /-- due to start at its next period start; due to stop at the end of its current period, with this cause -/
  startDue : Bool := false
  stopDue : Option (BitVec 4) := none
  /-- a cleared phase that rejoins at a later step of its running rail (R188) -/
  rejoin : Bool := false
  /-- a pulse of the current period is on -/
  onTime : Bool := false
  /-- the current period emits a pulse (R163); it uses the burst reference (R174) -/
  pulse : Bool := false
  ipk : Bool := false
  /-- the rail whose carrier the phase follows, and the elapsed step at which its last period began (R161) -/
  car : Fin 16 := 0
  began : Nat := 0
  /-- steps of the current on-time that had passed when the carrier wrapped in it (R168) -/
  onLeast : Nat := 0
  /-- mode bounds of the current period: upper, lower (08 R192) -/
  mb : Option (BitVec 12 × BitVec 12) := none
  /-- cause 6 or 7 once a hard stop or the expiry of holdover has stopped the phase (R181) -/
  held : BitVec 4 := 0
  /-- the last period was bounded; a period has started since switching began (R182) -/
  bounded : Bool := false
  started : Bool := false
  /-- periods left in the current burst (R174) -/
  pulses : Nat := 0
  /-- offset in force, in steps; a changed offset waits for the carrier wrap (R168, R172) -/
  ofs : Nat := 0
  /-- output named PHASE_LIM of this phase at the last strobe (R166) -/
  limA : Option Word := none
  /-- reference in amperes delivered at the last strobe (R173) -/
  refA : Word := 0
  /-- PHS_DT, PHS_TMG and PHS_SLOPE as in force since the last period start (R168) -/
  dt : Word := 0x01E001E0
  tmg : Word := 0x0024245A
  slope : Word := 0
  /-- PHS_ISCL as in force since the last strobe (R167) -/
  scl : Word := 0
  deriving DecidableEq, Repr

/-- Rail states (07 R176); the code is PHS_GRP_STAT.state. -/
inductive RailState where
  | off | softStart | run | burst | softStop | hiccup | latched
  deriving DecidableEq, Repr

/-- One rail (07_phases.md). -/
structure RailSt where
  en : Bool := false
  state : RailState := .off
  cause : BitVec 4 := 0
  retries : BitVec 4 := 0
  inhibit : Bool := false
  inreg : Bool := false
  enPending : Bool := false
  ramp : Word := 0
  pre : Word := 0
  /-- elapsed tick of entry to the state; end of the minimum off time; elapsed tick of the last SOFT_START -/
  entry : Nat := 0
  offEnd : Nat := 0
  startAt : Nat := 0
  /-- elapsed step at which the carrier was last 0 (R161); a tick is 19,200 steps -/
  zero : Nat := 0
  /-- start value of the falling ramp (R180) -/
  r0 : Word := 0
  /-- a context took the STOP action on this rail in this tick -/
  stopAct : Bool := false
  /-- consecutive steps: in band, with inreg set, with I_m below shd, with I_m at or below enter -/
  bandRun : Nat := 0
  regRun : Nat := 0
  shedRun : Nat := 0
  burstRun : Nat := 0
  /-- a shed is due (PHASE_SHED), BURST is due (BURST_ENTER), inreg is due (RAIL_INREG), retries clear is due -/
  shedDue : Bool := false
  burstDue : Bool := false
  regDue : Bool := false
  retryDue : Bool := false
  /-- mean reference of the last step -/
  im : Word := 0
  /-- elapsed tick of the last burst start -/
  lastBurst : Option Nat := none
  deriving DecidableEq, Repr

/-- Phases and rails (07_phases.md). -/
structure PhsSt where
  ph : Vector PhaseSt 48 := Vector.replicate 48 {}
  rail : Vector RailSt 16 := Vector.replicate 16 {}
  deriving DecidableEq, Repr

/-- DFT_RXST counters (08). -/
structure RxSt where
  bad : Byte := 0
  unmapped : Byte := 0
  gap : Byte := 0
  stray : Byte := 0
  deriving DecidableEq, Repr

/-- A pending announcement (08 R199-R204). Ticks are elapsed ticks. -/
structure PendSt where
  valid : Bool := false
  phase : BitVec 2 := 0
  d : Fin 32 := 0
  h : Byte := 0
  src : Byte := 0
  shape : BitVec 4 := 0
  seq : BitVec 4 := 0
  m : Int := 0
  s : Nat := 0
  a : Nat := 0
  aTick : Word := 0
  /-- ramp-out: start, TICK[31:0] of the start, length -/
  z : Option Nat := none
  zTick : Word := 0
  zLen : Nat := 1
  base : Option Word := none
  /-- arrival of a PULSE entry has been recognised (its train goes on, R202) -/
  arrived : Bool := false
  deriving DecidableEq, Repr

/-- Sequence and liveness of one DRAFT_MAP entry (08 R197, R198). -/
structure DftMapSt where
  d : Fin 32
  src : Byte
  seq : Option (BitVec 4) := none
  /-- elapsed tick of the last frame that passed check 5: the liveness window starts there -/
  live : Option Nat := none
  down : Bool := false
  deriving DecidableEq, Repr

/-- An accepted announcement that is processed in the next tick (08 R199). -/
structure AnnSt where
  d : Fin 32
  src : Byte
  h : Byte
  shape : BitVec 4
  seq : BitVec 4
  mag : BitVec 16
  lead : BitVec 12
  s : Nat
  sTick : BitVec 48
  deriving DecidableEq, Repr

/-- Forwarded values of one port (08 R208): latched values and the elapsed tick of the latch. -/
structure FwdSt where
  p : Word := 0
  s : Word := 0
  at_ : Option Nat := none
  stale : Bool := false
  deriving DecidableEq, Repr

/-- The Draft manager (08). -/
structure DftSt where
  eff : BitVec 2 := 2
  /-- the effective mode's pair mismatched at the last strobe (R193) -/
  batBad : Bool := false
  trajW : Word := 0
  ppV : Word := 0
  rx : Vector RxSt 32 := Vector.replicate 32 {}
  pend : Vector PendSt 64 := Vector.replicate 64 {}
  maps : List DftMapSt := []
  queue : List AnnSt := []
  /-- release ramps: first deasserted tick (R194) -/
  rel : Vector (Option Nat) 2 := Vector.replicate 2 none
  /-- ACFAIL inputs as the feed-forward last saw them -/
  acf : BitVec 2 := 0
  fwd : Vector FwdSt 4 := Vector.replicate 4 {}
  /-- forwarded messages received and not yet latched: port, P, S -/
  fwdIn : List (Nat × Fin 4 × Word × Word) := []
  /-- V_pp messages received and not yet latched: value, TICK[31:0] named -/
  vppIn : List (Nat × Word × Word) := []
  /-- member: V_pp in use, TICK[31:0] named, elapsed tick of the last latch, stale; latched values whose named tick lies ahead -/
  vpp : Option (Word × Word × Nat) := none
  vppNext : List (Word × Word) := []
  vppStale : Bool := false
  /-- lead: V_pp values formed ahead for elapsed ticks (R208) -/
  ahead : List (Nat × Word) := []
  deriving DecidableEq, Repr

end Sys2Proof.Machine
end

