-- ==== Sys2Proof/Machine/StateMore.lean ====
section
/-! DEFINITION. State of the Ember pool (09), thermal unit (10), battery unit (11), non-volatile store (13) and fuses (14). -/

namespace Sys2Proof.Machine

/-- A count held with its bitwise complement (09 R212, R217). -/
structure Cnt where
  v : Word := 0
  c : Word := 0xFFFFFFFF
  deriving DecidableEq, Repr

/-- rstate of a holder (09 R217); the code is its position. -/
inductive RevState where
  | none | ask | enforce | wait
  deriving DecidableEq, Repr

/-- The enforcement write of a holder (09 R222, R223, R325). -/
structure EnfSt where
  /-- an allowance waits for its first attempt; the watts it stands for (R223) -/
  need : Bool := false
  want : Word := 0
  /-- an attempt is on the bus -/
  onBus : Bool := false
  /-- the allowance that waits is higher than the one asked for before -/
  rise : Bool := false
  /-- watts of the attempt on the bus, or of the last one -/
  sent : Word := 0
  /-- that allowance, in amperes -/
  limit : Word := 0
  /-- bytes of the last attempt started on TWI2: address, command, LINEAR11 word, PEC if set (R222) -/
  wire : List Byte := []
  /-- elapsed tick at which the next attempt falls due, after a failed one -/
  retryAt : Option Nat := none
  /-- consecutive failures -/
  fails : Nat := 0
  /-- a REVOKE_ACK completed the pend while the attempt was on the bus: it is not retried (R222) -/
  acked : Bool := false
  deriving DecidableEq, Repr

/-- One holder but for its written words (09 R217). -/
structure HolderSt where
  grant : Cnt := {}
  pend : Cnt := {}
  req : Word := 0
  rstate : RevState := .none
  enforced : Bool := false
  leaseExp : Bool := false
  enfFail : Bool := false
  /-- elapsed tick at which the revocation deadline expires -/
  deadline : Nat := 0
  /-- elapsed tick at which the lease window expires -/
  lease : Option Nat := none
  enf : EnfSt := {}
  deriving DecidableEq, Repr

/-- A transfer record (09 EMB_XFER). -/
structure XferSt where
  dir : BitVec 2 := 0
  st : BitVec 3 := 0
  port : BitVec 2 := 0
  node : BitVec 14 := 0
  xid : Word := 0
  w : Word := 0
  opened : Word := 0
  /-- elapsed ticks of the next retransmission and of the end of the offer -/
  retryAt : Nat := 0
  offerEnd : Nat := 0
  deriving DecidableEq, Repr

/-- Ember host commands (09 EMB_HCMD). -/
inductive HostOp where
  | request | giveBack | renew | revokeAck
  deriving DecidableEq, Repr

/-- Ember messages received over the Stack link (09 R227). -/
inductive EmbMsg where
  | offer | commit | cancel | ask | accept | reject | finished
  deriving DecidableEq, Repr

/-- A host command that waits (09 R355): its initiator, operation, holder and amount. -/
structure HostWait where
  ini : Initiator
  op : HostOp
  h : Fin 256
  w : Word
  deriving DecidableEq, Repr

/-- An Ember message that waits in its receive slot (09 R355): kind, port, source, xid or amount, W or reason. -/
structure MsgWait where
  kind : EmbMsg
  p : Fin 4
  src : BitVec 14
  xid : Word
  w : Word
  deriving DecidableEq, Repr

/-- An effect withheld until the standby has acknowledged its tick (09 R233). -/
inductive Withheld where
  | send (p : Fin 4) (cls : Fin 4) (m : Msg)
  | hres
  | slow (mask : BitVec 16)
  /-- the limit of holder `h`, raised to `w` watts -/
  | limit (h : Fin 256) (w : Word)
  deriving DecidableEq, Repr

/-- The Ember pool (09_embers.md). -/
structure EmbSt where
  frozen : Bool := false
  uncovered : Bool := false
  seq : BitVec 16 := 0
  total : Cnt := {}
  free : Cnt := {}
  granted : Cnt := {}
  transit : Cnt := {}
  pending : Cnt := {}
  debt : Cnt := {}
  hresBusy : Bool := false
  hres : BitVec 4 := 0
  ask : Vector Word 4 := Vector.replicate 4 0
  reqmap : Vector Word 8 := Vector.replicate 8 0
  hold : Vector HolderSt 256 := Vector.replicate 256 {}
  xfer : Vector XferSt 32 := Vector.replicate 32 {}
  /-- the next transfer id -/
  xid : Word := 0
  /-- the committed snapshot of the grants (R213) -/
  snap : Vector Word 256 := Vector.replicate 256 0
  /-- operations and register writes of this tick (R355) -/
  ops : Nat := 0
  /-- phase-loss burns of this tick of a paired active, by phase (R355) -/
  burns : List (Fin 48 × Word) := []
  waitHost : Option HostWait := none
  /-- what waited for this tick is still to be admitted, after the deadlines and leases of cycle 0 (R214) -/
  go : Bool := false
  waitMsg : List MsgWait := []
  /-- register writes that wait for a later tick of a paired active: initiator, address, word, byte-lane mask (17 R355) -/
  waitReg : List (Initiator × Nat × Word × Word) := []
  /-- withheld effects with the tick of their operation -/
  held : List (Nat × Withheld) := []
  /-- the tick's entries of the mirror's EMB record, its burn map and its enforcement completion (17 R353) -/
  entries : List (List Byte) := []
  burnMap : BitVec 48 := 0
  enfDone : BitVec 16 := 0
  /-- a deadline, a lease or an offer has acted in this tick, which its EMB record must tell (R233, R234) -/
  acted : Bool := false
  deriving DecidableEq, Repr

/-- A zone (10 R237-R243). -/
structure ZoneSt where
  level : BitVec 2 := 0
  grace : Option Nat := none
  failed : BitVec 40 := 0
  tz : Option Half := none
  /-- THM_ZTEMP.t_z while T_z is undefined -/
  tzField : Half := 0
  deriving DecidableEq, Repr

/-- The thermal unit (10_thermal.md). -/
structure ThmSt where
  /-- requests queued; the first is the one in progress if `stop` is set -/
  queue : List (Fin 40) := []
  /-- elapsed tick at which the measurement in progress completes -/
  stop : Option Nat := none
  res : Vector (Option Half) 40 := Vector.replicate 40 none
  stamp : Vector Word 40 := Vector.replicate 40 0
  /-- elapsed tick of the latest result -/
  resAt : Vector Nat 40 := Vector.replicate 40 0
  /-- a run of 0x7FFF results of the sensor has been logged and has not ended (R242) -/
  bad : BitVec 40 := 0
  zone : Vector ZoneSt 8 := Vector.replicate 8 {}
  substRes : BitVec 3 := 0
  deriving DecidableEq, Repr

/-- A 64-bit value with its complement (11 R247). -/
structure Q64 where
  v : BitVec 64 := 0
  c : BitVec 64 := 0xFFFFFFFFFFFFFFFF
  deriving DecidableEq, Repr

/-- What an evaluation takes from cycle 0 of its boundary tick (11 R250): zero point, capacity, registers, and the rest count it forms. -/
structure StrEval where
  empty : BitVec 64 := 0
  cap : BitVec 64 := 0
  scfg : Word := 0
  trest : Word := 0
  twin : Word := 0
  qrel : Word := 0
  rcnt : BitVec 24 := 0
  deriving DecidableEq, Repr

/-- One battery string (11_battery.md). -/
structure StrSt where
  q : Q64 := {}
  /-- fraction of the accumulator, in 2^-32 microcoulombs -/
  residue : Nat := 0
  /-- whole microcoulombs added at the last cycle 0 -/
  chg : BitVec 64 := 0
  snap : Q64 := {}
  /-- the snapshot value of the boundary before the last (R262), and the low half of a charge of SNAP that waits for its high half -/
  prevQ : BitVec 64 := 0
  snapLow : Word := 0
  /-- the snapshot of the boundary before (R251, R255) -/
  prev : Option (BitVec 64) := none
  /-- BAT_QSET as written last; a value that waits for the next cycle 0 (R248) -/
  qset : BitVec 64 := 0
  qsetDue : Option (BitVec 64 × Nat) := none
  empty : BitVec 64 := 0
  cap : BitVec 64 := 0
  since : BitVec 64 := 0
  belowQ : BitVec 64 := 0
  soc : Word := 0
  qBad : Bool := false
  cutoff : Bool := false
  below : Bool := false
  learned : Bool := false
  susLow : Bool := false
  susHigh : Bool := false
  held : Bool := false
  wbPend : Bool := false
  hasRef : Bool := false
  lastFull : Bool := false
  anchored : Bool := false
  refSigma : Word := 0
  refQ : BitVec 64 := 0
  refTick : Word := 0
  heldC : BitVec 64 := 0
  rcnt : BitVec 24 := 0
  /-- sum of the slow frame's samples, their number, and the mean of the last slow frame (R251) -/
  sum : Word := 0
  nsum : Nat := 0
  mean : Word := 0
  /-- the evaluation under way, whose results become visible at cycle 240 (R250) -/
  ev : StrEval := {}
  evalDue : Bool := false
  /-- consecutive full frames; an anchor, a rest point is due -/
  fullRun : Nat := 0
  fullDue : Bool := false
  restDue : Bool := false
  /-- consecutive ticks below the empty voltage, and the last tick with a sample; a cutoff is due at this tick's cycle 240 (R253) -/
  vRun : Nat := 0
  vAt : Nat := 0
  cutDue : Bool := false
  deriving DecidableEq, Repr

/-- The battery unit (11_battery.md). -/
structure BatSt where
  ship : Bool := true
  chg : Bool := false
  /-- consecutive asserted CHGDET samples -/
  chgRun : Nat := 0
  enterReq : Option Nat := none
  releaseReq : Option Nat := none
  /-- ship cleared in the tick before: the SHIP_WAKE reset is due (19 R404) -/
  wakeReset : Option Nat := none
  /-- TICK[31:0] of the last boundary, and of the one before (R262) -/
  snapAt : Word := 0
  prevAt : Word := 0
  /-- what the keeper of SHIP_N holds through a reset (19 R388): the level last driven -/
  keeper : Option Bool := none
  str : Vector StrSt 16 := Vector.replicate 16 {}
  deriving DecidableEq, Repr

/-- Where a queued write comes from (13 "Writing pages"). -/
inductive NvSrc where
  | thF | thB | spi | twi0 | define (i : Fin 8) | blackBox (index : Nat) (isSeal : Bool) | scrub | consumed | journalClear (i : Fin 16)
  deriving DecidableEq, Repr

/-- A queued or running write: byte offset in the store, bytes, source; the journal of an A/B record it opens or closes (13 R297). -/
structure NvWrite where
  src : NvSrc
  off : Nat
  data : List Byte
  abFirst : Option (Fin 16 × Bool) := none
  abLast : Option (Fin 16) := none
  deriving DecidableEq, Repr

/-- A partition descriptor with its passwords and unlocks (13 R291-R295). -/
structure PartSt where
  en : Bool := false
  rpw : Bool := false
  wpw : Bool := false
  first : BitVec 15 := 0
  count : Half := 0
  rdPw : BitVec 64 := 0
  wrPw : BitVec 64 := 0
  fails : Nat := 0
  lockout : Bool := false
  unlHostR : Bool := false
  unlHostW : Bool := false
  unlStkR : Bool := false
  unlStkW : Bool := false
  deriving DecidableEq, Repr

/-- A descriptor that a DEFINE has queued (13 R295). -/
structure PartDef where
  en : Bool
  rpw : Bool
  wpw : Bool
  first : BitVec 15
  count : Half
  rdPw : BitVec 64
  wrPw : BitVec 64
  deriving DecidableEq, Repr

/-- An A/B record (13 R296-R298). -/
structure AbSt where
  en : Bool := false
  busy : Bool := false
  winner : BitVec 2 := 0
  validA : Bool := false
  validB : Bool := false
  gap : Bool := false
  n : BitVec 3 := 0
  pageA : BitVec 15 := 0
  pageB : BitVec 15 := 0
  bound : Word := 0
  seq : Word := 0
  deriving DecidableEq, Repr

/-- A journal group: the copy (false A, true B) and TICK (13 R297). -/
structure Journal where
  copyB : Bool
  tick : BitVec 48
  deriving DecidableEq, Repr

/-- The non-volatile store's controller (13_mram.md); the user area's bytes are in the memory at 0x10000000 up. -/
structure NvmSt where
  aband : BitVec 5 := 0
  ng : Nat := 0
  volt : Word := 0
  uncorr : Bool := false
  denied : Bool := false
  regErr : Bool := false
  corrCnt : BitVec 16 := 0
  errAddr : Word := 0
  last : Vector (BitVec 2) 3 := Vector.replicate 3 0
  cmdRes : BitVec 3 := 0
  pres : BitVec 3 := 0
  pw : Vector Word 6 := Vector.replicate 6 0
  queue : List NvWrite := []
  /-- the write in progress; elapsed tick and cycle of its start -/
  cur : Option NvWrite := none
  curAt : Nat := 0
  curCycle : Nat := 0
  /-- the page-write marker of the system area: page and TICK[31:0] (13 R284, R290) -/
  marker : Option (BitVec 15 × Word) := none
  /-- the partition descriptors of the system area, and the register copies read at boot (13 R291) -/
  sysPart : Vector (Option PartDef) 8 := Vector.replicate 8 none
  part : Vector PartSt 8 := Vector.replicate 8 {}
  /-- descriptors queued by DEFINE -/
  defs : List (Fin 8 × PartDef) := []
  ab : Vector AbSt 16 := Vector.replicate 16 {}
  journal : Vector (Option Journal) 16 := Vector.replicate 16 none
  /-- the last gate decision was an acceptance (13 R287) -/
  gateOk : Bool := true
  /-- next group of the scrubber; elapsed tick of its last visit (13 R283) -/
  scrubPos : Nat := 0
  scrubAt : Nat := 0
  deriving DecidableEq, Repr

/-- An OTP command in progress (14 R311-R313). -/
inductive OtpCmd where
  | program (w : Byte) (tries : Nat) (target : Word)
  | screen
  deriving DecidableEq, Repr

/-- The fuse array's controller (14_fuses.md). -/
structure OtpSt where
  /-- the array: the bits blown in each of a word's two copies (R299); a blown fuse stays blown, also without power -/
  copyA : Vector Word 256 := Vector.replicate 256 0
  copyB : Vector Word 256 := Vector.replicate 256 0
  /-- the array has been sensed in this power-on (R301) -/
  seen : Bool := false
  data : Vector Word 256 := Vector.replicate 256 0
  marginal : BitVec 256 := 0
  region : Vector (BitVec 2) 16 := Vector.replicate 16 0
  cause : BitVec 4 := 0
  part : Half := 0
  cmd : Option OtpCmd := none
  /-- elapsed tick in which the command started; PFAIL_N has been sampled asserted during it -/
  cmdAt : Nat := 0
  cmdPfail : Bool := false
  /-- the attempt after which the command stops, for PFAIL_N or a system reset (R312, 19 R391); 0: none -/
  cmdStop : Nat := 0
  att : BitVec 4 := 0
  status : BitVec 4 := 0
  rd : Word := 0
  screenMap : BitVec 256 := 0
  screenMarg : BitVec 9 := 0
  screenSgl : BitVec 9 := 0
  deriving DecidableEq, Repr

end Sys2Proof.Machine
end

