-- ==== Sys2Proof/Machine/StatePorts.lean ====
section
/-! DEFINITION. State of the two-wire ports (15), the SPI port (20), the Stack link (16) and the pair unit and witness (17). -/

namespace Sys2Proof.Machine

/-- A committed TWI0 transaction in the host command queue (15 R321). -/
inductive HostTxn where
  /-- words in ascending address (R327, R423) -/
  | words (a : Word) (ws : List Word)
  /-- one access of 1, 2 or 4 bytes (R423) -/
  | poke (a : Word) (width : Nat) (v : Word)
  /-- bytes from an address up: words, then single bytes (R423) -/
  | block (a : Word) (bs : List Byte)
  /-- MFR_EMB: EMB_HCMD_W, then EMB_HCMD (R326) -/
  | emb (op : Byte) (h : Byte) (w : Word)
  /-- a written status register, or CLEAR_FAULTS (R326, R328): its code, and the bits written 1 -/
  | status (code : Byte) (v : Half)
  deriving DecidableEq, Repr

/-- A controller transaction (15 R324). -/
structure CxTxn where
  proto : BitVec 3
  pec : Bool
  addr : BitVec 7
  code : Byte
  len : BitVec 6
  deriving DecidableEq, Repr

/-- One two-wire port (15_two_wire.md). -/
structure TwiSt where
  asleep : Bool := false
  arbLost : Bool := false
  stretchTo : Bool := false
  pecErr : Bool := false
  selfReset : Bool := false
  earlyStart : Byte := 0
  stretchCnt : Byte := 0
  /-- the program transaction queued or on the bus, and its retries after lost arbitration -/
  cx : Option CxTxn := none
  cxLoss : Nat := 0
  /-- that transaction has started on the bus (15 R325) -/
  cxOn : Bool := false
  rlen : Byte := 0
  status : BitVec 4 := 0
  /-- a byte of the last target transaction was not acknowledged (15 R322, R326, 01 R30) -/
  nack : Bool := false
  /-- the elapsed tick in which the port's bus last moved: a line held low since then was held no sooner (18 R386) -/
  busAt : Nat := 0
  /-- clocks of the last bus clear, which a STOP ends (15 R317) -/
  clears : BitVec 4 := 0
  deriving DecidableEq, Repr

/-- What TWI0 adds: straps, pointer, host queue, PMBus status (15 R316, R321, R326-R328). -/
structure HostSt where
  straps : BitVec 3 := 0
  ptr : Word := 0
  rlen : Byte := 4
  /-- pointer and read length as they were before a transaction that has not ended in STOP yet (R319) -/
  saved : Option (Word × Byte) := none
  queue : List HostTxn := []
  stWord : Half := 0
  stTemp : Byte := 0
  stCml : Byte := 0
  /-- ALERT_N released by an alert response until another bit latches -/
  released : Bool := false
  /-- bytes returned by the last PMBus read -/
  out : List Byte := []
  deriving DecidableEq, Repr

/-- The SPI port (20 R417): queued words of a WRITE; the answer of the last READ or STATUS. -/
structure SpiSt where
  buf : List (Word × Word) := []
  out : List Word := []
  status : Byte := 0
  deriving DecidableEq, Repr

/-- A message that waits to be relayed (16 R336): arrival port, departure port, class, message; whether a relay slot holds it. -/
structure RelayEnt where
  inp : Fin 4
  outp : Fin 4
  cls : Fin 4
  msg : Msg
  deriving DecidableEq, Repr

/-- One Stack port (16_stack_link.md). Classes: 0 CTRL, 1 EMB_RSP, 2 EMB_REQ, 3 LOG. -/
structure StkPortSt where
  /-- 0 DOWN, 1 TRAINING, 2 UP -/
  st : BitVec 2 := 0
  /-- elapsed tick since which the port has held a valid character stream (02 R52) -/
  lockAt : Option Nat := none
  dup : Bool := false
  far : BitVec 14 := 0
  dly : Word := 0
  cred : Vector Nat 4 := Vector.replicate 4 0
  txq : Vector (List Msg) 4 := Vector.replicate 4 []
  /-- messages of records that are due while EMB_REQ is full, in the order in which they fell due (18 R383) -/
  dues : List Msg := []
  /-- CTRL messages of the pair unit that wait for room in their queue (17 R370) -/
  ctrlDues : List Msg := []
  /-- own exports by FBX_EXP number (16, 17: Draft forwards) and relayed ones (types 0x10-0x21), waiting -/
  exps : List (Nat × Msg) := []
  relExps : List Msg := []
  /-- TIME messages waiting (DELAY_REQ, DELAY_RSP) -/
  times : List Msg := []
  /-- number of the next frame; number of the last peer frame received valid -/
  seq : Byte := 0
  ack : Byte := 0
  /-- per-class counts of the frames sent and not yet acknowledged, oldest first -/
  sent : List (Byte × Vector Nat 4) := []
  crc : BitVec 16 := 0
  drop : BitVec 16 := 0
  /-- consecutive ticks with a message waiting and no credit; event 0x905 given -/
  stall : Vector Nat 4 := Vector.replicate 4 0
  stallSaid : Vector Bool 4 := Vector.replicate 4 false
  /-- the six slots of the frame sent last, and its credit character -/
  slots : List Msg := []
  credOut : Byte := 0
  /-- elapsed tick of the frame sent last (R331); the node id that it carried as a training frame (R333) -/
  sentAt : Option Nat := none
  train : Option (BitVec 14) := none
  /-- messages of this tick that failed their CRC, of which event 0x902 is still to tell (R335) -/
  crcNew : Nat := 0
  /-- consecutive frames whose slot 5 carried EMB_RSP while an EMB_REQ waited (18 R383) -/
  rspRun : Nat := 0
  /-- elapsed tick of the last SYNC received on the port (17 R371) -/
  syncAt : Option Nat := none
  deriving DecidableEq, Repr

/-- The Stack link (16_stack_link.md). -/
structure LinkSt where
  port : Vector StkPortSt 4 := Vector.replicate 4 {}
  /-- messages waiting for SRECV: CTRL and LOG, with their port -/
  ctrl : List (Fin 4 × Msg) := []
  log : List (Fin 4 × Msg) := []
  relay : List RelayEnt := []
  impStale : Word := 0
  deriving DecidableEq, Repr

/-- PAIR_STAT.role; the code is its position (17 R345). -/
inductive Role where
  | unpaired | active | syncing | synced | failed | witness
  deriving DecidableEq, Repr

/-- A parameter set (17 R357): number, entries not yet sent, the whole set, the next fragment. -/
structure PSet where
  num : Half
  left : List (Nat × Word)
  all : List (Nat × Word)
  frag : Nat := 0
  frames : Nat := 0
  deriving DecidableEq, Repr

/-- A record of the deferrable queue: its bytes (17 R356). -/
abbrev Rec := List Byte

/-- The witness (17 R350): the grants, and the elapsed ticks of the last ALIVE of each controller. -/
structure WitSt where
  grantA : Bool := false
  grantB : Bool := false
  aliveA : Option Nat := none
  aliveB : Option Nat := none
  /-- the elapsed ticks of the last rising edges of each -/
  edgeA : Option Nat := none
  edgeB : Option Nat := none
  /-- the elapsed tick in which B was granted because neither held the grant (19 R399) -/
  firstB : Option Nat := none
  /-- a swap is in progress: the old grant goes at the new active's next pulse -/
  swapping : Bool := false
  swapNew : Ctl := .A
  deriving DecidableEq, Repr

/-- The pair unit (17_pairing.md). -/
structure PairSt where
  role : Role := .unpaired
  solo : Bool := false
  stale : Bool := false
  staleTx : Bool := false
  /-- levels of WIT_GRANT and DAMPER_IN at the pins; the gate of R347 -/
  wit : Bool := false
  damperIn : Bool := false
  gateOpen : Bool := false
  imgMm : Bool := false
  txSeq : Byte := 0
  ackSeq : Byte := 0
  /-- standby: seq of the last frame applied, content tick of that frame -/
  rxSeq : Option Byte := none
  rxTick : Word := 0
  /-- the elapsed content tick of that frame; seq of the last peer frame received in full, which the next frame acknowledges (R352) -/
  rxAt : Option Nat := none
  lastSeq : Byte := 0
  bad : Half := 0
  hand : Byte := 0
  resyncs : Byte := 0
  dly : Word := 0
  queue : List Rec := []
  sets : List PSet := []
  /-- record bytes in the last frame -/
  used : BitVec 9 := 0
  frame : List Byte := []
  /-- a frame received and not yet applied -/
  rx : Option (List Byte) := none
  /-- parameter set being received: number, entries -/
  rxSet : List (Nat × Word) := []
  /-- elapsed ticks of the last valid peer header and of the last valid frame -/
  hdrAt : Nat := 0
  validAt : Nat := 0
  /-- a cause to become stale or solo has been found and PAIR_LINK_DOWN is due (R359) -/
  downDue : Option Nat := none
  pmirUsed : Nat := 0
  /-- frames sent and not yet acknowledged: seq, elapsed content tick -/
  sentF : List (Byte × Nat) := []
  /-- mirrored state last sent, to find what changed: rail words, phase maps, zone words -/
  lastRail : Vector Word 16 := Vector.replicate 16 0
  lastPhase : List Byte := []
  lastZone : Vector (Word × BitVec 40) 8 := Vector.replicate 8 (0, 0)
  /-- the pool's seq in the EMB record sent last -/
  lastEmb : BitVec 16 := 0
  /-- the peer's header asked for a resynchronisation -/
  peerReq : Bool := false
  /-- strings whose BAT record is due, in order, with the boundary's TICK[31:0] (R356) -/
  batDue : List (Fin 16 × Word × Nat) := []
  /-- handover tick; codes of the last REFS applied; the resume of R362 is due -/
  handAt : Option Nat := none
  refs : List (BitVec 12) := List.replicate 48 2048
  resumeAt : Option Nat := none
  /-- swap: the boundary commanded or agreed on, as an elapsed tick; elapsed tick from which the interval counts (R366); announced -/
  swapAt : Option Nat := none
  swapBase : Option Nat := none
  swapAnn : Bool := false
  /-- resynchronisation: SNAP ranges left (address, words), running since -/
  snaps : List (Nat × Nat) := []
  resyncAt : Option Nat := none
  /-- a resynchronisation is asked for: by the standby, or by the loss of a record of thread F (R356) -/
  resyncReq : Bool := false
  /-- the Ember state is being sent: no operation is admitted (R369) -/
  snapEmb : Bool := false
  /-- the Ember words being sent, as of the first of their SNAP records -/
  embWords : List Word := []
  /-- standby: a SNAP has arrived since the last loss; Ember state 0 not received, 1 arriving, 2 held; content tick (elapsed) of its
  first SNAP; EMB records that wait for its end, with their content ticks -/
  snapSeen : Bool := false
  embPh : Nat := 0
  snapAt : Nat := 0
  embLater : List (Nat × Rec) := []
  /-- standby: snapshots of the active's accumulators; table ranges that have arrived, end of the last SNAP of data SRAM -/
  snapQ : Vector (BitVec 64) 16 := Vector.replicate 16 0
  /-- TICK[31:0] of the boundary of each -/
  snapQAt : Vector Word 16 := Vector.replicate 16 0
  snapTbls : List Nat := []
  snapEnd : Nat := 0
  /-- became active by a swap: the peer's last frames still apply (R367) -/
  swapped : Bool := false
  /-- released its damper line: FAULT is sent until reset (R361) -/
  faultOut : Bool := false
  /-- stability windows of R370 and R371: slow frames left; lead to be taken at an elapsed tick -/
  leadWin : Option Nat := none
  parWin : Option Nat := none
  leadTake : Option Nat := none
  /-- WIT_HB code of this tick: 0 none, 1 ALIVE, 2 FAULT, 3 SWAP (R349) -/
  hb : BitVec 2 := 0
  witSt : WitSt := {}
  deriving DecidableEq, Repr

end Sys2Proof.Machine
end

