-- ==== Sys2Proof/Machine/State.lean ====
section
/-! DEFINITION. The state of the block: plain data (INVENTORY.md, "State"), its reset value, and the reasons a step could stop. -/

namespace Sys2Proof.Machine

/-- A shadow write of this tick: who wrote, the register's byte address, the word, and the bits of it that the access wrote
(01 R20-R23). -/
structure ShadowWrite where
  ini : Initiator
  addr : Nat
  val : Word
  lane : Word := 0xFFFFFFFF
  deriving DecidableEq, Repr

/-- An open RWC pair: the register's first word, its holder, the words written so far, the elapsed tick of the first (00 R10, 01 R23). -/
structure OpenPair where
  base : Nat
  ini : Initiator
  words : List Word
  since : Nat := 0
  deriving DecidableEq, Repr

/-- A memory word read with an error: corrected or uncorrectable (01 R29, R30; 13 R281). -/
inductive EccErr where
  | corr | uncorr
  deriving DecidableEq, Repr

/-- The state of the block. -/
structure State where
  /-- commands waiting, first in first out (the model's own queue, notes/assumptions/2.md) -/
  pending : List Instr := []
  /-- elapsed ticks since power-on: every timer counts them (02 R47) -/
  now : Nat := 0
  /-- cycle within the tick at the last event (02 R39; notes/assumptions/4.md) -/
  cycle : Nat := 0
  /-- how many free values have been drawn (the model's own counter) -/
  freeCtr : Nat := 0
  /-- registers that differ from their reset value, by byte address, rising -/
  regs : List (Nat × Word) := []
  shadow : List ShadowWrite := []
  openPairs : List OpenPair := []
  /-- every byte memory of the map, by bus byte address; an unlisted byte reads 0 -/
  mem : List Host.Cell := []
  /-- words (SRAM, descriptor and matrix stores) and groups (MRAM) that hold an error, by byte address -/
  ecc : List (Nat × EccErr) := []
  pins : PinSt := {}
  sys : SysSt := {}
  clk : ClkSt := {}
  time : TimeSt := {}
  boot : BootSt := {}
  pwr : PwrSt := {}
  log : LogSt := {}
  stk : StokerSt := {}
  seq : SeqSt := {}
  sns : SnsSt := {}
  fbx : FbxSt := {}
  phs : PhsSt := {}
  dft : DftSt := {}
  emb : EmbSt := {}
  thm : ThmSt := {}
  bat : BatSt := {}
  nvm : NvmSt := {}
  otp : OtpSt := {}
  twi : Vector TwiSt 3 := Vector.replicate 3 {}
  host : HostSt := {}
  spi : SpiSt := {}
  link : LinkSt := {}
  pr : PairSt := {}
  /-- the feature mask in force (14 R309, R310) -/
  feat : Half := 0
  deriving DecidableEq, Repr

/-- Reasons to stop with a fault. No meaning of this model answers one: the block has no stop of its own. -/
inductive Fault where
  /-- raised by nobody (safe): kept so that the type is inhabited -/
  | unreachable
  deriving DecidableEq, Repr

/-- Reasons to refuse a command. -/
inductive Refusal where
  /-- raised by Dispatch.lean alone, for a command without a meaning (safe: the run stops) -/
  | notModelled (mnemonic : String)
  deriving DecidableEq, Repr

/-- The block right after power-on reset (19 R387-R390): every field at its reset value (notes/assumptions/6.md). -/
def State.reset : State := {}

end Sys2Proof.Machine
end

