-- ==== Sys2Proof/Machine/Bits.lean ====
section
/-! DEFINITION. Bit fields, vectors and sparse maps. -/

namespace Sys2Proof.Machine

/-- Bit `i` of a word. -/
def bit {n : Nat} (w : BitVec n) (i : Nat) : Bool := w.getLsbD i

/-- The field of `n` bits from bit `lo`, as a number. -/
def fld {k : Nat} (w : BitVec k) (lo n : Nat) : Nat := w.toNat / 2 ^ lo % 2 ^ n

/-- A field as bits. -/
def bits {k : Nat} (w : BitVec k) (lo n : Nat) : BitVec n := (w >>> lo).setWidth n

/-- A number as a word. -/
def nw (n : Nat) : Word := BitVec.ofNat 32 n

/-- A Bool at bit `i` of a word. -/
def bw (b : Bool) (i : Nat) : Word := if b then (1 : Word) <<< i else 0

/-- A field placed at bit `lo` of a word. -/
def at_ {k : Nat} (v : BitVec k) (lo : Nat) : Word := v.setWidth 32 <<< lo

/-- `n` reduced to an index. -/
def idx {k : Nat} [NeZero k] (n : Nat) : Fin k := Fin.ofNat k n

/-- One entry of a vector changed. -/
def upd {α : Type} {n : Nat} (v : Vector α n) (i : Fin n) (f : α → α) : Vector α n := v.set i (f v[i])

/-- Counting up, saturating. -/
def satAdd {n : Nat} (v : BitVec n) (k : Nat) : BitVec n := BitVec.ofNat n (min (v.toNat + k) (2 ^ n - 1))

/-- Every index below `k`, ascending. -/
def fins (k : Nat) : List (Fin k) := List.finRange k

/-- Lookup in a sparse map. -/
def sget {α : Type} : List (Nat × α) → Nat → Option α
  | [], _ => none
  | (k, v) :: m, a => if k = a then some v else if a < k then none else sget m a

/-- A sparse map with the entry of `a` set (`some`) or removed (`none`); keys stay strictly rising. -/
def sput {α : Type} : List (Nat × α) → Nat → Option α → List (Nat × α)
  | [], a, some v => [(a, v)]
  | [], _, none => []
  | (k, x) :: m, a, o =>
    if k = a then (match o with | some v => (a, v) :: m | none => m)
    else if a < k then (match o with | some v => (a, v) :: (k, x) :: m | none => (k, x) :: m)
    else (k, x) :: sput m a o

/-- Fold over indices 0 .. n-1. -/
def forN {σ : Type} : Nat → (Nat → σ → σ) → σ → σ
  | 0, _, s => s
  | n + 1, f, s => f n (forN n f s)

/-- Signed reading of a word. -/
def sgn {k : Nat} (w : BitVec k) : Int := w.toInt

/-- A signed number as a word (wrapping). -/
def iw (i : Int) : Word := BitVec.ofInt 32 i

/-- Little-endian bytes of a value of `n` bytes. -/
def leBytes : Nat → Nat → List Byte
  | 0, _ => []
  | n + 1, v => BitVec.ofNat 8 v :: leBytes n (v / 256)

/-- A value from little-endian bytes. -/
def leNat : List Byte → Nat
  | [] => 0
  | b :: bs => b.toNat + 256 * leNat bs

/-- Bytes of a word, little-endian. -/
def wBytes (w : Word) : List Byte := leBytes 4 w.toNat

end Sys2Proof.Machine
end

