-- ==== Sys2Proof/Machine/Crc.lean ====
section
/-! DEFINITION. The check sums of the spec: CRC-8 of Draft frames (08 R196), CRC-8 of SMBus PEC (15), CRC-16 with polynomial
0x1021 (14 R303, 16 R335), CRC-32 of IEEE 802.3 (04 R94, 12 R276, 13, 17, 19), SHA-256 (19 R396). -/

namespace Sys2Proof.Machine

/-- One byte into an unreflected CRC of `n` bits. -/
def crcStep {n : Nat} (poly : BitVec n) (c : BitVec n) (b : Byte) : BitVec n :=
  (List.range 8).foldl (fun c _ => if c.msb then (c <<< 1) ^^^ poly else c <<< 1) (c ^^^ (b.setWidth n <<< (n - 8)))

/-- CRC-8, x⁸ + x² + x + 1, initial 0 (Draft frames and SMBus PEC). -/
def crc8 (bs : List Byte) : Byte := bs.foldl (crcStep (0x07 : Byte)) 0

/-- CRC-16, polynomial 0x1021, initial 0xFFFF, unreflected. -/
def crc16 (bs : List Byte) : Half := bs.foldl (crcStep (0x1021 : Half)) 0xFFFF

/-- One byte into the reflected CRC-32. -/
def crc32Step (c : Word) (b : Byte) : Word :=
  (List.range 8).foldl (fun c _ => if bit c 0 then (c >>> 1) ^^^ 0xEDB88320 else c >>> 1) (c ^^^ b.setWidth 32)

/-- CRC-32 of IEEE 802.3. -/
def crc32 (bs : List Byte) : Word := ~~~ (bs.foldl crc32Step 0xFFFFFFFF)

/-! ### SHA-256: its constants are computed from what defines them, roots of the first primes -/

/-- The largest `r` below 2^36 whose `k`th power is at most `n`, found bit by bit from the highest. -/
def intRoot (k n : Nat) : Nat := (List.range 36).foldr (fun b r => if (r + 2 ^ b) ^ k ≤ n then r + 2 ^ b else r) 0

/-- The first 32 bits behind the point of the `k`th root of `p`. -/
def rootFrac (k p : Nat) : Word := BitVec.ofNat 32 (intRoot k (p * 2 ^ (32 * k)))

/-- The primes below 312: the first 64. -/
def shaPrimes : List Nat := (List.range 312).filter fun p => decide (2 ≤ p) && (List.range p).all fun d => decide (d < 2) || p % d != 0

/-- The 64 round constants: cube roots. -/
def shaK : List Word := shaPrimes.map (rootFrac 3)

/-- The eight chaining words of SHA-256. -/
structure Sha where
  a : Word
  b : Word
  c : Word
  d : Word
  e : Word
  f : Word
  g : Word
  h : Word

def rotr (w : Word) (n : Nat) : Word := w.rotateRight n

/-- One round. -/
def shaRound (s : Sha) (kw : Word) : Sha :=
  let s1 := rotr s.e 6 ^^^ rotr s.e 11 ^^^ rotr s.e 25
  let ch := (s.e &&& s.f) ^^^ (~~~ s.e &&& s.g)
  let t1 := s.h + s1 + ch + kw
  let s0 := rotr s.a 2 ^^^ rotr s.a 13 ^^^ rotr s.a 22
  let mj := (s.a &&& s.b) ^^^ (s.a &&& s.c) ^^^ (s.b &&& s.c)
  { a := t1 + (s0 + mj), b := s.a, c := s.b, d := s.c, e := s.d + t1, f := s.e, g := s.f, h := s.g }

/-- Message schedule: `win` holds the last 16 words, newest first; `n` more words are appended. -/
def shaSched : Nat → List Word → List Word → List Word
  | 0, _, acc => acc.reverse
  | n + 1, win, acc =>
    let w2 := win.getD 1 0
    let w15 := win.getD 14 0
    let x := (rotr w2 17 ^^^ rotr w2 19 ^^^ (w2 >>> 10)) + win.getD 6 0 +
             (rotr w15 7 ^^^ rotr w15 18 ^^^ (w15 >>> 3)) + win.getD 15 0
    shaSched n (x :: win.take 15) (x :: acc)

/-- Big-endian words of bytes. -/
def beWords : List Byte → List Word
  | a :: b :: c :: d :: t => (a ++ b ++ c ++ d : BitVec 32) :: beWords t
  | _ => []

/-- The chaining words before the first block: square roots of the first eight primes. -/
def shaInit : Sha :=
  let h (i : Nat) : Word := rootFrac 2 (shaPrimes.getD i 0)
  { a := h 0, b := h 1, c := h 2, d := h 3, e := h 4, f := h 5, g := h 6, h := h 7 }

/-- One 64-byte block. -/
def shaBlock (s : Sha) (blk : List Byte) : Sha :=
  let w := beWords blk
  let ws := w ++ shaSched 48 w.reverse []
  let r := (List.zipWith (· + ·) ws shaK).foldl shaRound s
  { a := s.a + r.a, b := s.b + r.b, c := s.c + r.c, d := s.d + r.d, e := s.e + r.e, f := s.f + r.f, g := s.g + r.g, h := s.h + r.h }

/-- Blocks of a padded message. -/
def shaBlocks : Nat → Sha → List Byte → Sha
  | 0, s, _ => s
  | n + 1, s, bs => shaBlocks n (shaBlock s (bs.take 64)) (bs.drop 64)

/-- The padded message. -/
def shaPad (bs : List Byte) : List Byte :=
  let z := (119 - bs.length % 64) % 64
  bs ++ [0x80] ++ List.replicate z 0 ++ (leBytes 8 (8 * bs.length)).reverse

/-- SHA-256 as eight big-endian words. -/
def sha256 (bs : List Byte) : List Word :=
  let m := shaPad bs
  let r := shaBlocks (m.length / 64) shaInit m
  [r.a, r.b, r.c, r.d, r.e, r.f, r.g, r.h]

end Sys2Proof.Machine
end

