-- ==== Sys2Proof/Machine/Fp.lean ====
section
/-! DEFINITION. FP32 arithmetic of 03_lerzia.md R76, exact and then rounded once: round to nearest, ties to even; subnormal
inputs are zeros; results that would be subnormal, decided on the exact result, are zeros; one quiet NaN.
Flags are returned in fstat's places: [4] nv, [3] dz, [2] of, [1] uf, [0] nx. -/

namespace Sys2Proof.Machine

/-- The value of an FP32 word: NaN, an infinity, or ± m × 2^e. -/
inductive FpVal where
  | nan
  | inf (neg : Bool)
  | num (neg : Bool) (m : Nat) (e : Int)
  deriving DecidableEq, Repr

abbrev qNaN : Word := 0x7FC00000
abbrev fOne : Word := 0x3F800000
abbrev fpNv : BitVec 6 := 16
abbrev fpDz : BitVec 6 := 8
abbrev fpOfNx : BitVec 6 := 5
abbrev fpUfNx : BitVec 6 := 3
abbrev fpNx : BitVec 6 := 1

/-- Sign bit. -/
def fSign (w : Word) : Bool := bit w 31

/-- The value of a word; a subnormal is a zero of its sign. -/
def fVal (w : Word) : FpVal :=
  let ex := fld w 23 8
  let fr := fld w 0 23
  if ex = 255 then (if fr = 0 then .inf (fSign w) else .nan)
  else if ex = 0 then .num (fSign w) 0 0
  else .num (fSign w) (2 ^ 23 + fr) ((ex : Int) - 150)

def fIsNaN (w : Word) : Bool := match fVal w with | .nan => true | _ => false
def fIsFinite (w : Word) : Bool := match fVal w with | .num _ _ _ => true | _ => false
def fInf (neg : Bool) : Word := if neg then 0xFF800000 else 0x7F800000
def fZero (neg : Bool) : Word := if neg then 0x80000000 else 0

/-- `2^k` for an Int exponent known not to be negative. -/
def pow2 (k : Int) : Nat := 2 ^ k.toNat

/-- ± (m + δ) × 2^e with 0 < δ < 1 when `sticky`, rounded once. With `sticky`, m must have at least 26 bits (notes/assumptions/8.md). -/
def fRound (neg : Bool) (m : Nat) (e : Int) (sticky : Bool) : Word × BitVec 6 :=
  if m = 0 then (fZero neg, 0)
  else
    let len := Nat.log2 m + 1
    if (len : Int) - 1 + e < -126 then (fZero neg, fpUfNx)
    else
      let sh := len - 24
      let q := if 24 ≤ len then m / 2 ^ sh else m * 2 ^ (24 - len)
      let r := if 24 ≤ len then m % 2 ^ sh else 0
      let e1 : Int := e + (len : Int) - 24
      let twice := 2 * r
      let up := (twice > 2 ^ sh ∨ (twice = 2 ^ sh ∧ (sticky ∨ q % 2 = 1))) ∧ 24 < len
      let q1 := if up then q + 1 else q
      let (q2, e2) := if q1 = 2 ^ 24 then (2 ^ 23, e1 + 1) else (q1, e1)
      let biased := e2 + 150
      if 255 ≤ biased then (fInf neg, fpOfNx)
      else (fZero neg ||| (BitVec.ofInt 32 biased <<< 23) ||| nw (q2 - 2 ^ 23), if r = 0 ∧ ¬ sticky then 0 else fpNx)

/-- ± m × 2^e as a signed number scaled to exponent `e0 ≤ e`. -/
def fScaled (neg : Bool) (m : Nat) (e e0 : Int) : Int := let v : Int := ((m * pow2 (e - e0) : Nat) : Int); if neg then -v else v

/-- Sum of two finite values, rounded once; an exact zero is +0 unless both terms are negative. -/
def fAddNum (n1 : Bool) (m1 : Nat) (e1 : Int) (n2 : Bool) (m2 : Nat) (e2 : Int) : Word × BitVec 6 :=
  let e0 := min e1 e2
  let t := fScaled n1 m1 e1 e0 + fScaled n2 m2 e2 e0
  if t = 0 then (fZero (n1 && n2), 0) else fRound (decide (t < 0)) t.natAbs e0 false

/-- Sum of two values. -/
def fAddVal (a b : FpVal) : Word × BitVec 6 :=
  match a, b with
  | .nan, _ => (qNaN, 0)
  | _, .nan => (qNaN, 0)
  | .inf x, .inf y => if x = y then (fInf x, 0) else (qNaN, fpNv)
  | .inf x, _ => (fInf x, 0)
  | _, .inf y => (fInf y, 0)
  | .num n1 m1 e1, .num n2 m2 e2 => fAddNum n1 m1 e1 n2 m2 e2

/-- Exact product of two values, and whether it is an invalid zero × infinity. -/
def fMulVal (a b : FpVal) : FpVal × Bool :=
  match a, b with
  | .nan, _ => (.nan, false)
  | _, .nan => (.nan, false)
  | .inf x, .inf y => (.inf (x != y), false)
  | .inf x, .num y m _ => if m = 0 then (.nan, true) else (.inf (x != y), false)
  | .num x m _, .inf y => if m = 0 then (.nan, true) else (.inf (x != y), false)
  | .num n1 m1 e1, .num n2 m2 e2 => (.num (n1 != n2) (m1 * m2) (e1 + e2), false)

/-- A value as a word, rounded once. -/
def fWord (v : FpVal) : Word × BitVec 6 :=
  match v with
  | .nan => (qNaN, 0)
  | .inf n => (fInf n, 0)
  | .num n m e => fRound n m e false

def fNegW (w : Word) : Word := w ^^^ 0x80000000
def fAbsW (w : Word) : Word := w &&& 0x7FFFFFFF

/-- FADD (notes/assumptions/8.md). -/
def fpAdd (a b : Word) : Word × BitVec 6 := fAddVal (fVal a) (fVal b)
/-- FSUB: negation is exact. -/
def fpSub (a b : Word) : Word × BitVec 6 := fAddVal (fVal a) (fVal (fNegW b))
/-- FMUL (notes/assumptions/8.md). -/
def fpMul (a b : Word) : Word × BitVec 6 :=
  let (p, bad) := fMulVal (fVal a) (fVal b)
  if bad then (qNaN, fpNv) else fWord p
/-- FMAC: d + a × b, rounded once (notes/assumptions/8.md). -/
def fpMac (d a b : Word) : Word × BitVec 6 :=
  if fIsNaN d then (qNaN, 0)
  else
    let (p, bad) := fMulVal (fVal a) (fVal b)
    if bad then (qNaN, fpNv) else fAddVal (fVal d) p

/-- FDIV (notes/assumptions/8.md). -/
def fpDiv (a b : Word) : Word × BitVec 6 :=
  match fVal a, fVal b with
  | .nan, _ => (qNaN, 0)
  | _, .nan => (qNaN, 0)
  | .inf _, .inf _ => (qNaN, fpNv)
  | .inf x, .num y _ _ => (fInf (x != y), 0)
  | .num x _ _, .inf y => (fZero (x != y), 0)
  | .num n1 m1 e1, .num n2 m2 e2 =>
    if m2 = 0 then (if m1 = 0 then (qNaN, fpNv) else (fInf (n1 != n2), fpDz))
    else if m1 = 0 then (fZero (n1 != n2), 0)
    else fRound (n1 != n2) (m1 * 2 ^ 40 / m2) (e1 - 40 - e2) (m1 * 2 ^ 40 % m2 != 0)

/-- Integer square root by bits: the largest r with r² ≤ n, below 2^k beyond `r`. -/
def isqrtGo (n : Nat) : Nat → Nat → Nat
  | 0, r => r
  | k + 1, r => if (r + 2 ^ k) * (r + 2 ^ k) ≤ n then isqrtGo n k (r + 2 ^ k) else isqrtGo n k r

/-- FSQRT (notes/assumptions/8.md). -/
def fpSqrt (a : Word) : Word × BitVec 6 :=
  match fVal a with
  | .nan => (qNaN, 0)
  | .inf n => if n then (qNaN, fpNv) else (fInf false, 0)
  | .num n m e =>
    if m = 0 then (fZero n, 0)
    else if n then (qNaN, fpNv)
    else
      let odd := e % 2 != 0
      let m1 := (if odd then 2 * m else m) * 2 ^ 40
      let e1 := (if odd then e - 1 else e) - 40
      let r := isqrtGo m1 34 0
      fRound false r (e1 / 2) (r * r != m1)

/-- Order of two values that are not NaN: a < b. -/
def fLtVal (a b : FpVal) : Bool :=
  match a, b with
  | .nan, _ => false
  | _, .nan => false
  | .inf x, .inf y => x && !y
  | .inf x, .num _ _ _ => x
  | .num _ _ _, .inf y => !y
  | .num n1 m1 e1, .num n2 m2 e2 => let e0 := min e1 e2; decide (fScaled n1 m1 e1 e0 < fScaled n2 m2 e2 e0)

def fpLt (a b : Word) : Bool := fLtVal (fVal a) (fVal b)
def fpGt (a b : Word) : Bool := fpLt b a
/-- Equality: neither NaN, neither below the other. -/
def fpEq (a b : Word) : Bool := !fIsNaN a && !fIsNaN b && !fpLt a b && !fpLt b a
def fpLe (a b : Word) : Bool := fpLt a b || fpEq a b
def fpGe (a b : Word) : Bool := fpLe b a

/-- An operand as the arithmetic takes it: a subnormal is a zero of its sign, a NaN is the quiet NaN. -/
def fTake (w : Word) : Word :=
  match fVal w with
  | .nan => qNaN
  | .inf n => fInf n
  | .num n m _ => if m = 0 then fZero n else w

/-- FMIN and FMAX: a NaN operand gives the other; `z` is the sign taken between zeros of unlike sign (free, Config.zeroChoice) (notes/assumptions/9.md). -/
def fpMin (z : Bool) (a b : Word) : Word :=
  if fIsNaN a then fTake b else if fIsNaN b then fTake a
  else if fpLt a b then fTake a else if fpLt b a then fTake b
  else if fTake a = fTake b then fTake a else fZero z
def fpMax (z : Bool) (a b : Word) : Word :=
  if fIsNaN a then fTake b else if fIsNaN b then fTake a
  else if fpLt a b then fTake b else if fpLt b a then fTake a
  else if fTake a = fTake b then fTake a else fZero z

/-- FCVTWS: toward zero, saturated (R76) (notes/assumptions/8.md). -/
def fpToInt (a : Word) : Word × BitVec 6 :=
  match fVal a with
  | .nan => (0, fpNv)
  | .inf n => (if n then 0x80000000 else 0x7FFFFFFF, fpNv)
  | .num n m e =>
    let q := if 0 ≤ e then m * pow2 e else m / pow2 (-e)
    let exact := decide (0 ≤ e) || decide (m % pow2 (-e) = 0)
    if n then (if q > 2 ^ 31 ∨ (q = 2 ^ 31 ∧ ¬ exact) then (0x80000000, fpNv) else (iw (-(q : Int)), if exact then 0 else fpNx))
    else if q ≥ 2 ^ 31 then (0x7FFFFFFF, fpNv) else (nw q, if exact then 0 else fpNx)

/-- A signed number as FP32, rounded once. -/
def fOfInt (i : Int) : Word × BitVec 6 := fRound (decide (i < 0)) i.natAbs 0 false
def fInt (i : Int) : Word := (fOfInt i).1
def fNat (n : Nat) : Word := fInt n

/-- Nearest integer to a finite value, ties to even (07 R165); other values are the caller's. -/
def fNearest (a : Word) : Int :=
  match fVal a with
  | .num n m e =>
    if 0 ≤ e then fScaled n m e 0
    else
      let d := pow2 (-e)
      let q := m / d
      let r := m % d
      let q1 := if 2 * r > d ∨ (2 * r = d ∧ q % 2 = 1) then q + 1 else q
      if n then -(q1 : Int) else q1
  | _ => 0

/-- Largest integer not above a finite value. -/
def fFloor (a : Word) : Int :=
  match fVal a with
  | .num n m e => if 0 ≤ e then fScaled n m e 0 else (fScaled n m 0 0) / ((pow2 (-e) : Nat) : Int)
  | _ => 0

/-- Results without flags, for the units that have none (05 R115). -/
def fAdd (a b : Word) : Word := (fpAdd a b).1
def fSub (a b : Word) : Word := (fpSub a b).1
def fMul (a b : Word) : Word := (fpMul a b).1
def fMac (d a b : Word) : Word := (fpMac d a b).1
def fDiv (a b : Word) : Word := (fpDiv a b).1

/-! ### LINEAR11 and LINEAR16 (15 R329) -/

/-- ± m × 2^e to the nearest integer, ties to even. -/
def rneScaled (neg : Bool) (m : Nat) (e : Int) : Int :=
  let v : Nat :=
    if 0 ≤ e then m * pow2 e
    else
      let d := pow2 (-e)
      let q := m / d
      let r := m % d
      if 2 * r > d ∨ (2 * r = d ∧ q % 2 = 1) then q + 1 else q
  if neg then -(v : Int) else v

/-- The exact word of ± m × 2^e, a multiple of 2^-149 below 2^-126 as a subnormal: the conversions of R329 are exact, and no
arithmetic. -/
def fExact (neg : Bool) (m : Nat) (e : Int) : Word :=
  if m ≠ 0 ∧ (Nat.log2 m : Int) + e < -126 then fZero neg ||| nw (m * pow2 (e + 149)) else (fRound neg m e false).1

/-- The value of a word, a subnormal too. -/
def fValX (w : Word) : FpVal := if fld w 23 8 = 0 then .num (fSign w) (fld w 0 23) (-149) else fVal w

/-- LINEAR11 and LINEAR16 to FP32 (R329). -/
def ofLinear (xform : Nat) (ex : Int) (v : Half) : Word :=
  if xform = 1 then
    let y : Int := (bits v 0 11 : BitVec 11).toInt
    fExact (decide (y < 0)) y.natAbs (bits v 11 5 : BitVec 5).toInt
  else fExact false v.toNat ex

/-- The smallest N in -16 to 15 whose mantissa fits. -/
def linN (neg : Bool) (m : Nat) (e : Int) : Int × Int :=
  let fits (n : Int) : Bool := let y := rneScaled neg m (e - n); decide (-1024 ≤ y) && decide (y ≤ 1023)
  match (List.range 32).find? fun (k : Nat) => fits ((k : Int) - 16) with
  | some k => ((k : Int) - 16, rneScaled neg m (e - ((k : Int) - 16)))
  | none => (15, if neg then -1024 else 1023)

/-- FP32 to LINEAR11 and LINEAR16 (R329). -/
def toLinear (xform : Nat) (ex : Int) (w : Word) : Half :=
  match fValX w with
  | .nan => 0
  | .inf neg => if xform = 1 then BitVec.ofInt 16 ((15 : Int) * 2048) ||| (if neg then 0x400 else 0x3FF) else if neg then 0 else 0xFFFF
  | .num neg m e =>
    if xform = 1 then
      let r := linN neg m e
      ((BitVec.ofInt 5 r.1).setWidth 16 <<< 11) ||| (BitVec.ofInt 11 r.2).setWidth 16
    else BitVec.ofInt 16 (max 0 (min 65535 (rneScaled neg m (e - ex))))

end Sys2Proof.Machine
end

