-- ==== Sys2Proof/Config.lean ====
section
/-! DEFINITION. What the spec leaves free: opaque constants, so that nothing can be proved about their values
(notes/assumptions/9.md, 12.md). Where they are used the State's counter `freeCtr` is the argument and is advanced. -/

namespace Sys2Proof.Config

/-- The sign bit taken when FMIN or FMAX compares +0 with -0 (03_lerzia.md R76 states no order of the two zeros). -/
opaque zeroChoice : Nat → Bool

/-- Bytes whose content the spec leaves open: filler and the unstated fields of a pad record (12_recorder.md R266),
a group being written when a power-on reset falls (13_mram.md R290). -/
opaque freeByte : Nat → Byte

/-- A word the spec leaves open. -/
opaque freeWord : Nat → Word

/-- The coding of a payload word whose coding no chapter states: event code, field number, choice (12_recorder.md R264:
"Indices, codes and flags each take one word"). -/
opaque codeOf : Nat → Nat → Nat → Word

end Sys2Proof.Config
end

