-- ==== Sys2Proof/Machine/Ops.lean ====
section
/-! DEFINITION. Named operations over the state: errors, events, records, memory, presence of instances. -/

namespace Sys2Proof.Machine

/-- SYS_ERR flag numbers (21 "System status and errors"). -/
abbrev errAbsent : Nat := 31
abbrev errPair : Nat := 30
abbrev errLocked : Nat := 29
abbrev errUnmapped : Nat := 28

/-- A flag of SYS_ERR is set; the address is recorded while every flag was clear (21 R421). -/
def State.flagErr (s : State) (f addr : Nat) : State :=
  { s with sys := { s.sys with err := s.sys.err ||| bw true f,
                               errAddr := if s.sys.err = 0 then nw addr else s.sys.errAddr } }

/-- The events that were pending before this cycle, and those that arose in it (03 R80). -/
def State.evBefore (s : State) : BitVec 12 := if s.stk.evAt = (s.now, s.cycle) then s.stk.evWas else s.stk.evpend
def State.evFresh (s : State) : BitVec 12 := if s.stk.evAt = (s.now, s.cycle) then s.stk.evNew else 0

/-- An event bit of evpend is set (03 R80). -/
def State.evp (s : State) (b : Nat) : State :=
  let e : BitVec 12 := (1 : BitVec 12) <<< b
  { s with stk := { s.stk with evpend := s.stk.evpend ||| e, evAt := (s.now, s.cycle), evNew := s.evFresh ||| e, evWas := s.evBefore } }

/-- A record is posted, stamped with the tick (12 R267, 02 R53). -/
def State.post (s : State) (org : Origin) (code sev : Nat) (payloads : List (List Word)) : State :=
  { s with log := { s.log with posted := s.log.posted ++
      [{ org := org, code := BitVec.ofNat 12 code, sev := BitVec.ofNat 3 sev, stamp := s.time.tick, payloads := payloads }] } }

/-- A device event of one record (12 R264) (notes/assumptions/12.md). -/
def State.dev (s : State) (code sev : Nat) (payload : List Word) : State := s.post .device code sev [payload]

/-- A device event that lists many entries: one record if it fits in 255 words, else the series of R424. -/
def State.devList (s : State) (code sev : Nat) (fixed : List Word) (entries : List (List Word)) : State :=
  let all := fixed ++ entries.flatten
  if all.length ≤ 255 then s.dev code sev all
  else
    let per := (255 - fixed.length - 1) / (max 1 ((entries.headD []).length))
    let chunks := (List.range ((entries.length + per - 1) / per)).map fun k =>
      fixed ++ [nw (k * per) ||| nw entries.length <<< 16] ++ ((entries.drop (k * per)).take per).flatten
    s.post .device code sev chunks

/-- A 48-bit tick as two payload words, low first (12 R264). -/
def tickWords (t : BitVec 48) : List Word := [t.setWidth 32, (t >>> 32).setWidth 32]

/-- A 64-bit quantity as two payload words, low first (12 R264). -/
def w64 (v : BitVec 64) : List Word := [v.setWidth 32, (v >>> 32).setWidth 32]

/-- The payload word of a thread: its tid (03 R64). -/
def thWord : Thread → Word
  | .F => 0
  | .B => 1

/-- The payload word of an initiator; no chapter states its coding (notes/assumptions/12.md). -/
def iniWord (i : Initiator) : Word :=
  Config.codeOf 0 0 (match i with | .F => 0 | .B => 1 | .spi => 2 | .twi0 => 3)

/-- One byte of memory (notes/assumptions/7.md). -/
def State.byte (s : State) (a : Nat) : Byte := (sget s.mem a).getD 0

/-- A sparse map in canonical form: keys strictly rising, every value accepted by `ok`. -/
def sparseWf {α : Type} (ok : Nat → α → Bool) : List (Nat × α) → Bool
  | [] => true
  | (a, v) :: m => ok a v && (match m with | [] => true | (b, _) :: _ => decide (a < b)) && sparseWf ok m

/-- The memory's canonical form: addresses strictly rising, no byte 0 listed (an unlisted byte reads 0, notes/assumptions/7.md). -/
def Memory.wf (m : List Host.Cell) : Bool := sparseWf (fun _ v => v != 0) m

/-- One byte of memory written; memory stays canonical. -/
def memSet (m : List Host.Cell) (a : Nat) (v : Byte) : List Host.Cell := sput m a (if v = 0 then none else some v)

/-- Bytes written from address `a` up. -/
def memPut (m : List Host.Cell) : Nat → List Byte → List Host.Cell
  | _, [] => m
  | a, b :: bs => memPut (memSet m a b) (a + 1) bs

/-- Bytes read from address `a` up. -/
def State.bytes (s : State) (a n : Nat) : List Byte := (List.range n).map fun i => s.byte (a + i)

/-- A little-endian word of memory. -/
def State.word (s : State) (a : Nat) : Word :=
  (s.byte a).setWidth 32 ||| (s.byte (a + 1)).setWidth 32 <<< 8 ||| (s.byte (a + 2)).setWidth 32 <<< 16 ||| (s.byte (a + 3)).setWidth 32 <<< 24

/-- A word of memory written. -/
def State.setWord (s : State) (a : Nat) (v : Word) : State := { s with mem := memPut s.mem a (wBytes v) }

/-- Bytes of memory written. -/
def State.setBytes (s : State) (a : Nat) (bs : List Byte) : State := { s with mem := memPut s.mem a bs }

/-- Instances the feature mask enables (00 family table, 14 R309). -/
def State.nPhases (s : State) : Nat := if bit s.feat 1 then 48 else if bit s.feat 0 then 32 else 16
def State.nCtx (s : State) : Nat := if bit s.feat 3 then 128 else if bit s.feat 2 then 96 else 48
def State.nPorts (s : State) : Nat := if bit s.feat 5 then 4 else if bit s.feat 4 then 2 else 1
def State.nStrings (s : State) : Nat := if bit s.feat 7 then 16 else if bit s.feat 6 then 8 else 0
def State.nDraft (s : State) : Nat := if bit s.feat 10 then 32 else if bit s.feat 9 then 16 else 8
def State.hasPair (s : State) : Bool := bit s.feat 8

/-- A free value is drawn: the counter advances (notes/assumptions/9.md). -/
def State.drawn (s : State) : State := { s with freeCtr := s.freeCtr + 1 }

/-- Start of a tick's elapsed-tick difference as TICK bits: the TICK value of elapsed tick `e` under the TICK in force (notes/assumptions/5.md). -/
def State.tickAt (s : State) (e : Nat) : BitVec 48 := BitVec.ofInt 48 ((s.time.tick.toNat : Int) + (e : Int) - (s.now : Int))

end Sys2Proof.Machine
end

