-- ==== Sys2Proof/Machine/RegMap.lean ====
section
/-! DEFINITION. The register map (21 R419-R422): for every word address of the register blocks, how the register is kept.
Status, command and other registers with rules of their own are `sp`; their units give their reading and writing. -/

namespace Sys2Proof.Machine

/-- How a register word is kept. -/
inductive RegKind where
  /-- no register (21 R420) -/
  | unmapped
  /-- read and written by its unit -/
  | sp
  /-- stored; written by its unit's rule -/
  | st
  /-- stored, takes effect when written -/
  | rw
  /-- parameter with shadow and active copy (01 R20) -/
  | par
  /-- hardware-written word (01 R19) -/
  | hw
  deriving DecidableEq, Repr

/-- A register word: kind, bits that hold, reset value, number of words of its RWC register (0: none) and index in it. -/
structure RegInfo where
  kind : RegKind
  mask : Word := 0xFFFFFFFF
  reset : Word := 0
  rwc : Nat := 0
  widx : Nat := 0
  deriving DecidableEq, Repr

namespace RegInfo
def unm : RegInfo := { kind := .unmapped }
def special : RegInfo := { kind := .sp }
def keep (mask reset : Word) : RegInfo := { kind := .rw, mask := mask, reset := reset }
def ruled (mask reset : Word) : RegInfo := { kind := .st, mask := mask, reset := reset }
def param (mask reset : Word) : RegInfo := { kind := .par, mask := mask, reset := reset }
/-- Word `i` of a two-word complement pair. -/
def pairOf (k : RegKind) (mask reset : Word) (i : Nat) : RegInfo :=
  { kind := k, mask := if i = 0 then mask else 0xFFFFFFFF, reset := if i = 0 then reset else ~~~ reset, rwc := 2, widx := i }
end RegInfo

open RegInfo

/-- SYS block (21 "SYS"; 01, 02, 03, 19). -/
def sysInfo (o : Nat) : RegInfo :=
  if o = 0x40 then ruled 0x00000303 0
  else if o = 0x48 then ruled 0x00000033 0
  else if o = 0x60 then ruled 0x80FF0301 0x00080200
  else if o = 0x68 then ruled 0x800000FF 0x00000010
  else if o = 0x90 then keep 0xFFFF00FF 0
  else if o ∈ [0x08, 0x0C, 0x10, 0x14, 0x18, 0x1C, 0x20, 0x24, 0x44, 0x4C, 0x50, 0x54, 0x58, 0x64, 0x80, 0x84, 0x88, 0x8C, 0x94, 0x98] then special
  else unm

/-- A descriptor word by class (05 R119): class C. -/
def descC (w : Nat) : RegInfo :=
  if w = 0 then param 0xFF700000 0
  else if w = 1 then param 0x00007FFF 0
  else if w ≤ 5 then param 0xFFFFFFFF 0
  else if w ≤ 13 then { kind := .par, rwc := 2, widx := w % 2 }
  else if w = 14 then param 0x003FFFFF 0
  else if w ≤ 19 then param 0xFFFFFFFF 0
  else if w = 20 then param 0x00071FFF 0
  else if w = 21 then param 0xFFFF00FF 0
  else if w ≤ 23 then param 0xFFFFFFFF 0
  else if w ≤ 25 then { kind := .hw }
  else param 0 0

/-- A descriptor word by class (05 R119): class S. -/
def descS (w : Nat) : RegInfo :=
  if w = 0 then param 0xFF700000 0
  else if w = 1 then param 0x00007FFF 0
  else if w ≤ 9 then param 0xFFFFFFFF 0
  else if w = 10 then param 0x31FF1FFF 0
  else if w = 11 then param 0x003FFFFF 0
  else if w ≤ 15 then { kind := .par, rwc := 2, widx := w % 2 }
  else if w = 16 then param 0xFFFFFFFF 0
  else if w ≤ 23 then param 0 0
  else if w ≤ 25 then { kind := .hw }
  else param 0 0

/-- Words whose write the schedule check covers (05 "The schedule check"). -/
def structuralC (w : Nat) : Bool := w ≤ 5 || w = 20 || w = 21
def structuralS (w : Nat) : Bool := w ≤ 10

/-- FBX block but for the descriptors, whose words depend on the class (05). -/
def fbxInfo (o : Nat) : RegInfo :=
  if o < 0x0C then special
  else if 0x10 ≤ o ∧ o < 0x20 then special
  else if 0x100 ≤ o ∧ o < 0x200 then special
  else if 0x200 ≤ o ∧ o < 0x240 then param 0x803F3FFF 0
  else if 0x400 ≤ o ∧ o < 0x700 then special
  else if 0x800 ≤ o ∧ o < 0xA00 then special
  else unm

/-- A phase's registers (07). -/
def phaseInfo (o : Nat) : RegInfo :=
  if o = 0x00 then param 0xF00F0000 0
  else if o = 0x04 then param 0x0FFF0FFF 0x01E001E0
  else if o = 0x08 then param 0x00FFFFFF 0x0024245A
  else if o = 0x0C then param 0x0003FFFF 0
  else if o = 0x10 then param 0x00000FFF 0
  else if o = 0x14 then param 0xFFFFFFFF 0
  else if o = 0x18 ∨ o = 0x1C then pairOf .par 0x0FFF0FFF 0x08000800 ((o - 0x18) / 4)
  else if o = 0x20 ∨ o = 0x24 then pairOf .par 0x0FFF0FFF 0x08000800 ((o - 0x20) / 4)
  else if o = 0x28 then param 0x00000FFF 0
  else if o = 0x30 ∨ o = 0x34 then pairOf .par 0xFFFFFFFF 0 ((o - 0x30) / 4)
  else if 0x40 ≤ o ∧ o ≤ 0x4C then special
  else unm

/-- A rail's registers (07). -/
def railInfo (o : Nat) : RegInfo :=
  if o = 0x00 then param 0xEFFF0F7F 0x20410000
  else if o = 0x04 then param 0x0003FFFF 0x00009600
  else if o = 0x08 ∨ o = 0x0C then param 0x000FFFFF 0x000003E8
  else if o = 0x10 then param 0xFF1F03FF 0x08030063
  else if o = 0x14 then param 0xFFFFFFFF 0x7F800000
  else if o = 0x18 then param 0xFFFFFFFF 0
  else if o = 0x1C then param 0xFFFFFFFF 0x03E803E8
  else if o = 0x20 then param 0xFFFF00FF 0x00140004
  else if o = 0x24 ∨ o = 0x28 then param 0xFFFFFFFF 0
  else if o = 0x2C then param 0xFFFFFFFF 0x3DCCCCCD
  else if o = 0x30 ∨ o = 0x34 then pairOf .par 0xFFFFFFFF 0x7F800000 ((o - 0x30) / 4)
  else if o = 0x38 then param 0xFFFFFFFF 0x3E800000
  else if 0x40 ≤ o ∧ o ≤ 0x4C then special
  else unm

/-- PHS block (07). -/
def phsInfo (o : Nat) : RegInfo :=
  if o < 0x3000 then phaseInfo (o % 0x100)
  else if o < 0x4000 then railInfo (o % 0x100)
  else if o = 0x4000 ∨ o = 0x4010 ∨ o = 0x4014 then special
  else unm

/-- SNS block (21 R422). -/
def snsInfo (o : Nat) : RegInfo :=
  if o < 0x600 then
    (if o % 16 = 0 then param 0xFFFFFFFF 0x3F800000 else if o % 16 = 4 then param 0xFFFFFFFF 0 else special)
  else unm

/-- DFT block (08). -/
def dftInfo (o : Nat) : RegInfo :=
  if o = 0x04 then param 0x8FFF0FFF 0x000000C8
  else if o = 0x08 then param 0xFFFFFFFF 0x01F400C8
  else if o = 0x0C then param 0xFFFFFFFF 0x00320014
  else if o = 0x10 ∨ o = 0x14 then param 0xFFFFFFFF 0
  else if o = 0x18 then param 0x0000FFFF 0
  else if o = 0x1C then param 0xFFFFFFFF 0x3F800000
  else if o = 0x20 then param 0xFFFFFFFF 0x3F000000
  else if 0x30 ≤ o ∧ o < 0x40 then param 0xFFFFFFFF 0
  else if 0x40 ≤ o ∧ o < 0x60 then (if o % 8 = 0 then param 0x8000007F 0 else param 0xFFFFFFFF 0)
  else if 0x60 ≤ o ∧ o < 0x80 then (if o % 8 = 0 then param 0x8000017F 0 else param 0xFFFFFFFF 0)
  else if o = 0x80 then param 0x0000FFFF 0x000003E8
  else if o = 0x84 then param 0x800FFF03 0x00000802
  else if 0x88 ≤ o ∧ o < 0xA0 then pairOf .par 0x0FFF0FFF 0x08000800 ((o - 0x88) / 4 % 2)
  else if o = 0xA0 then param 0xC30F3FFF 0
  else if 0x100 ≤ o ∧ o < 0x180 then param 0x8FFF0FFF 0x00020001
  else if o ∈ [0x00, 0x24, 0x28, 0x2C, 0xA4, 0xA8] then special
  else if 0x180 ≤ o ∧ o < 0x200 then special
  else if 0x400 ≤ o ∧ o < 0x800 then special
  else unm

/-- Reset words of LOG_RATE (12 R270): entry, code, limit; the window is 1,000 ticks. -/
def rateReset : List (Nat × Word) :=
  [(0, 0x80040018), (1, 0x80080105), (2, 0x80080206), (3, 0x80080305), (4, 0x8008030A), (5, 0x80100103)]

/-- LOG block (12). -/
def logInfo (o : Nat) : RegInfo :=
  if o = 0x00 then keep 0x00000177 0x00000050
  else if o ∈ [0x04, 0x08, 0x0C, 0x10, 0x14, 0x40, 0x44, 0x48] then special
  else if 0x20 ≤ o ∧ o < 0x40 then special
  else if 0x100 ≤ o ∧ o < 0x500 then
    (let i := (o - 0x100) / 16
     if o % 16 = 0 then ruled 0x80FF0FFF (((rateReset.find? fun p => p.1 = i).map (·.2)).getD 0)
     else if o % 16 = 4 then ruled 0x00FFFFFF (if i < 6 then 1000 else 0)
     else if o % 16 = 8 then special else unm)
  else if o = 0x500 then keep 0x8FFF0007 0x00400003
  else if o = 0x504 then keep 0x00007FFF 0
  else if o = 0x508 ∨ o = 0x50C then special
  else unm

/-- SEQ block (04). -/
def seqInfo (o : Nat) : RegInfo :=
  if o = 0 then keep 0xFFFFFFFF 0
  else if o = 4 ∨ o = 8 then special
  else if 0x100 ≤ o ∧ o < 0x400 then special
  else if 0x400 ≤ o ∧ o < 0x600 then special
  else unm

/-- THM block (10). -/
def thmInfo (o : Nat) : RegInfo :=
  if o ∈ [0x00, 0x04, 0x10, 0x14] then special
  else if o = 0x18 then keep 0xFFFFFFFF 0xFFFFFFFF
  else if (0x100 ≤ o ∧ o < 0x1A0) ∨ (0x200 ≤ o ∧ o < 0x2A0) then special
  else if 0x400 ≤ o ∧ o < 0x600 then
    (let w := o % 0x40
     if w = 0x00 then ruled 0xE000FFFF 0x40000000
     else if w = 0x04 then ruled 0xFFFFFFFF 0
     else if w = 0x08 then ruled 0x000000FF 0
     else if w = 0x0C ∨ w = 0x10 then keep 0x0000FFFF 0x00007FFF
     else if w = 0x14 then keep 0x0000FFFF 0
     else if w = 0x18 then keep 0x0000FFFF 1000
     else if w = 0x1C then keep 0xFFFFFFFF 0
     else if w ≤ 0x2C then special
     else unm)
  else unm

/-- BAT block (11). -/
def batInfo (o : Nat) : RegInfo :=
  if o = 0x00 ∨ o = 0x0C then special
  else if o = 0x04 then keep 0x801FFFFF 64
  else if o = 0x08 then ruled 0x0000FF00 0x00006400
  else if 0x1000 ≤ o ∧ o < 0x2000 then
    (let w := o % 0x100
     if w < 0x20 then special
     else if w < 0x50 then { kind := .sp, rwc := 4, widx := w / 4 % 4 }
     else if w < 0x60 then special
     else if w = 0x60 then keep 0xBFFFFF00 0x00001000
     else if w = 0x64 ∨ w = 0x68 ∨ w = 0x6C then keep 0xFFFFFFFF 0
     else if w = 0x70 then keep 0xFFFFFFFF 0x7F800000
     else if w = 0x74 ∨ w = 0x78 then keep 0xFFFFFFFF 0
     else if w = 0x7C then keep 0x00FFFFFF 1757813
     else if w = 0x80 then keep 0xFFFFFFFF 0x1E000A00
     else if w = 0x84 then keep 0xFFFFFFFF 0
     else if w ≤ 0xAC then special
     else unm)
  else unm

/-- EMB block (09). -/
def embInfo (o : Nat) : RegInfo :=
  if o = 0x04 then keep 0xC0FFFFFF 0x401003E8
  else if o = 0x40 then keep 0x00FF01FF 0x00640100
  else if o = 0x44 then keep 0xFFFFFFFF 0
  else if o = 0x48 then ruled 0x0000FFFF 0
  else if o = 0x50 then keep 0xFFFFFFFF 0
  else if o = 0x00 ∨ o = 0x08 ∨ (0x10 ≤ o ∧ o < 0x40) ∨ (0x4C ≤ o ∧ o < 0x70) ∨ (0x80 ≤ o ∧ o < 0xA0) ∨ (0x100 ≤ o ∧ o < 0x300) then special
  else if 0x1000 ≤ o ∧ o < 0x5000 then
    (let w := o % 64
     if w = 0 then ruled 0xFFFFFFFF 1000
     else if w = 4 ∨ w = 24 then keep 0xFFFFFFFF 0
     else special)
  else unm

/-- NVM block (13). -/
def nvmInfo (o : Nat) : RegInfo :=
  if o = 0x04 then ruled 0x8000FFFF 16
  else if o = 0x10 ∨ o = 0x14 then ruled 0xFFFFFFFF 0
  else if o = 0x18 ∨ o = 0x1C then ruled 0xFFFFFFFF 0x3F800000
  else if 0x40 ≤ o ∧ o < 0x80 then keep 0xFFFFFFFF 0
  else if o = 0x120 then keep 0xE0007FFF 0
  else if o = 0x124 then keep 0x0000FFFF 0
  else if o = 0x00 ∨ o = 0x08 ∨ (0x20 ≤ o ∧ o < 0x34) ∨ o = 0x80 ∨ o = 0x84 ∨ (0x100 ≤ o ∧ o ≤ 0x11C) ∨ (0x200 ≤ o ∧ o < 0x240) ∨ (0x400 ≤ o ∧ o < 0x500) then special
  else unm

/-- OTP block (14). -/
def otpInfo (o : Nat) : RegInfo :=
  if o = 0x08 then keep 0xFFFFFFFF 0
  else if o ∈ [0x00, 0x04, 0x0C, 0x10, 0x60, 0x80, 0x84] ∨ (0x20 ≤ o ∧ o < 0x60) ∨ (0xC0 ≤ o ∧ o < 0x100) ∨ (0x400 ≤ o ∧ o < 0x800) then special
  else unm

/-- TWI block (15). -/
def twiInfo (o : Nat) : RegInfo :=
  if 0x3000 ≤ o then unm
  else
    let w := o % 0x1000
    if w = 0 then (if o / 0x1000 = 0 then ruled 0xF8FF3000 0xC0031000 else ruled 0xF8FF307F 0xA0031000)
    else if w ∈ [0x04, 0x08, 0x10, 0x14] then special
    else if 0x20 ≤ w ∧ w < 0x40 then keep 0xFFFFFFFF 0
    else if o = 0x40 then keep 0x0000FFFF 0
    else if o = 0x44 then keep 0x000000FF 0
    else unm

/-- STK block (16). -/
def stkInfo (o : Nat) : RegInfo :=
  if o = 0x04 then ruled 0x00003FFF 0
  else if o = 0x08 then keep 0x8000FFFF 0x80000400
  else if o = 0x0C then ruled 0xFFFFFFFF 0x00000010
  else if o = 0x00 ∨ o = 0x10 then special
  else if 0x100 ≤ o ∧ o < 0x180 then
    (let w := o % 0x20
     if w = 0 then ruled 0x80000000 0x80000000 else if w ≤ 0x14 then special else unm)
  else unm

/-- PAIR block (17). -/
def pairInfo (o : Nat) : RegInfo :=
  if o = 0x00 then keep 0xDFFF00FF 0x10400008
  else if o = 0x18 then keep 0xFFFFFFFF 84375000
  else if o = 0x20 then keep 0xFF00FFFF 0x000003E8
  else if o ∈ [0x04, 0x08, 0x0C, 0x10, 0x14, 0x1C, 0x24] then special
  else unm

end Sys2Proof.Machine
end

