-- ==== Sys2Proof/Machine/RegTop.lean ====
section
/-! DEFINITION. The whole register map, and the stored registers' active and shadow copies (01 R20-R23, 21 R419). -/

namespace Sys2Proof.Machine

/-- Memory regions of the map (21 R419). -/
def inProg (a : Nat) : Bool := 0x100000 ≤ a && a < 0x140000
def inSram (a : Nat) : Bool := 0x200000 ≤ a && a < 0x280000
def inLog (a : Nat) : Bool := 0x400000 ≤ a && a < 0x440000
def inMram (a : Nat) : Bool := 0x10000000 ≤ a && a < 0x10200000
def inMatrix (a : Nat) : Bool := 0x18000 ≤ a && a < 0x20000
def inRegs (a : Nat) : Bool := a < 0xF0000 && !inMatrix a

/-- A register word outside the descriptor store, by byte address. -/
def baseInfo (a : Nat) : RegInfo :=
  let o := a % 0x10000
  match a / 0x10000 with
  | 0 => sysInfo o
  | 1 => fbxInfo o
  | 2 => phsInfo o
  | 3 => snsInfo o
  | 4 => thmInfo o
  | 5 => batInfo o
  | 6 => embInfo o
  | 7 => logInfo o
  | 8 => nvmInfo o
  | 9 => otpInfo o
  | 10 => twiInfo o
  | 11 => stkInfo o
  | 12 => pairInfo o
  | 13 => dftInfo o
  | 14 => seqInfo o
  | _ => .unm

/-- Whether an address lies in the descriptor store. -/
def isDesc (a : Nat) : Bool := 0x14000 ≤ a && a < 0x18000

/-- The register file's canonical form: addresses strictly rising, no register at its reset value listed. -/
def Regs.wf (m : List (Nat × Word)) : Bool := sparseWf (fun a v => v != (if isDesc a then 0 else (baseInfo a).reset)) m

/-- The active copy of a stored register word (its reset value where nothing else was written). -/
def State.reg (s : State) (a : Nat) : Word := (sget s.regs a).getD (if isDesc a then 0 else (baseInfo a).reset)

/-! ### Power states that other units ask about (19 R401, R403) -/

/-- RUN or IDLE: the units that SLEEP and SHIP switch off are on (19 R401). -/
def State.awake (s : State) : Bool := decide (s.pwr.state.toNat ≤ 1)

/-- A standby, syncing or synced (17 R345). -/
def State.inStandby (s : State) : Bool := s.pr.role == .syncing || s.pr.role == .synced

/-- What a new active drives from the tick after its handover only (17 R363): still as in a standby. -/
def State.yetHalted (s : State) : Bool :=
  s.inStandby || (s.pr.role == .active && (match s.pr.handAt with | some h => decide (s.now ≤ h) | none => false))

/-- A wake source is detected (19 R403). -/
def State.wakeSeen (s : State) (b : Nat) : State :=
  if bit (s.reg 0x90) b then { s with pwr := { s.pwr with wakeNew := s.pwr.wakeNew ||| (1 : Byte) <<< b } } else s

/-- The bus of a TWI port moves in this tick (15 R317, 18 R386). -/
def State.busUsed (s : State) (i : Fin 3) : State := { s with twi := upd s.twi i fun t => { t with busAt := s.now } }

/-- A merge under a byte-lane mask (notes/assumptions/21.md). -/
def merge (old v lane : Word) : Word := (old &&& ~~~ lane) ||| (v &&& lane)

/-- What the tick's writes start from: what the latest parameter set of a paired active holds (17 R357), else the active copy. -/
def State.shBase (s : State) (a : Nat) : Word := ((s.pr.sets.reverse.filterMap fun p => sget p.all a).head?).getD (s.reg a)

/-- The shadow copy: every byte as its last write of the tick leaves it (01 R20, R21). -/
def State.shReg (s : State) (a : Nat) : Word :=
  s.shadow.foldl (fun (v : Word) w => if w.addr = a then merge v w.val w.lane else v) (s.shBase a)

/-- A stored register word set; the register file stays canonical. -/
def State.setReg (s : State) (a : Nat) (v : Word) : State :=
  { s with regs := sput s.regs a (if v = (if isDesc a then 0 else (baseInfo a).reset) then none else some v) }

/-- Address of descriptor word `w` of context `x` (05 R119). -/
def descAddr (x w : Nat) : Nat := 0x14000 + 128 * x + 4 * w

/-- Class of a context by its shadow CTRL word (05 "The schedule check"): true for class S. -/
def State.shCls (s : State) (x : Nat) : Bool := bit (s.shReg (descAddr x 0)) 30

/-- A descriptor word as its context's active class has it: what a read returns of it (00 R9, 05 R119). -/
def State.descInfo (s : State) (a : Nat) : RegInfo :=
  let w := a % 128 / 4
  if bit (s.reg (descAddr ((a - 0x14000) / 128) 0)) 30 then descS w else descC w

/-- The register word at a 4-aligned address; a descriptor word depends on the context's class. DESIGN CHOICE: that of the shadow CTRL word as
it stands (notes/assumptions/31.md). -/
def State.info (s : State) (a : Nat) : RegInfo :=
  if isDesc a then
    let x := (a - 0x14000) / 128
    let w := a % 128 / 4
    if s.shCls x then descS w else descC w
  else baseInfo a

/-- A stored complement pair: its value, if the second word is the complement of the first. -/
def State.pair (s : State) (a : Nat) : Option Word :=
  if s.reg (a + 4) = ~~~ s.reg a then some (s.reg a) else none

/-- A shadow write of some of a word's bytes (01 R20). -/
def State.pushLanes (s : State) (ini : Initiator) (a : Nat) (v lane : Word) : State :=
  { s with shadow := s.shadow ++ [{ ini := ini, addr := a, val := v, lane := lane }] }

/-- A shadow write of a whole word (01 R20). -/
def State.pushShadow (s : State) (ini : Initiator) (a : Nat) (v : Word) : State := s.pushLanes ini a v 0xFFFFFFFF

end Sys2Proof.Machine
end

