-- ==== Sys2Proof/Machine/Log.lean ====
section
/-! DEFINITION. The recorder: admission, rate limits, staging, the ring and release (12 R263-R274, 18 R374). -/

namespace Sys2Proof.Machine

abbrev logRing : Nat := 262144
abbrev logBase : Nat := 0x400000
abbrev logCfg : Nat := 0x70000

/-- Address of word `w` of LOG_RATE[i]. -/
def rateAddr (i w : Nat) : Nat := 0x70100 + 16 * i + 4 * w

/-- The enabled entry that limits a code: the lowest-numbered (R268). -/
def State.rateEntry (s : State) (code : BitVec 12) : Option (Fin 64) :=
  (fins 64).find? fun i => let w := s.reg (rateAddr i.val 0); bit w 31 && bits w 0 12 == code

/-- Where the open window of an entry would be closed with its summary owed from tick `due` (R268, R269). -/
def closeWin (l : LogSt) (i : Fin 64) (code : BitVec 12) (due : Nat) : LogSt :=
  let w := l.win[i]
  let l := { l with win := l.win.set i {} }
  if w.isOpen && w.supp != 0 then
    { l with owed := l.owed ++ [{ entry := i, due := due, code := code, sev := w.sev, supp := w.supp, reserved := w.reserved, first := w.first, last := w.last }] }
  else l

/-- Bytes of a record in the ring (R263). -/
def recBytes (stamp : BitVec 48) (code : BitVec 12) (sev : BitVec 3) (sum : Bool) (seq : BitVec 16) (payload : List Word) : List Byte :=
  leBytes 6 stamp.toNat ++ leBytes 2 (code.toNat + 4096 * sev.toNat + 32768 * sum.toNat) ++
  [BitVec.ofNat 8 payload.length, 0] ++ leBytes 2 seq.toNat ++ payload.flatMap wBytes

/-- Bytes that a record of `n` bytes takes at head position `pos`: itself and the pad or filler before it (R266). -/
def needAt (pos n : Nat) : Nat := if pos % logRing + n > logRing then logRing - pos % logRing + n else n

/-- Entries of the ring already marked for eviction by staged records. -/
def markedN (l : LogSt) : Nat := (l.staged.map (·.evict)).foldl (· + ·) 0

/-- Head position once every staged record is written. -/
def virtHead (l : LogSt) : Nat := l.staged.foldl (fun p r => p + needAt p r.bytes.length) l.head

/-- May the record at the tail be evicted for one of severity `sev` (R271)? Pads and filler always may. -/
def evictable (cfg : Word) (rel : Nat) (sev : BitVec 3) (e : RingEnt) : Bool :=
  !e.real || decide (e.pos < rel) || decide (e.sev.toNat < fld cfg 4 3) || (decide (e.sev.toNat < sev.toNat) && !bit cfg 8)

/-- How many of the oldest entries must go until `need` bytes are free; none if one of them may not (R271). -/
def evictCount (cfg : Word) (rel : Nat) (sev : BitVec 3) : List RingEnt → Nat → Nat → Nat → Option Nat
  | [], free, need, n => if need ≤ free then some n else none
  | e :: es, free, need, n =>
    if need ≤ free then some n
    else if evictable cfg rel sev e then evictCount cfg rel sev es (free + e.len) need (n + 1) else none

/-- What became of a record (18 R374). -/
inductive Fate where
  | admitted (seq : BitVec 16)
  | suppressed (seq : BitVec 16)
  | dropped
  deriving DecidableEq, Repr

/-- A record dropped and counted in LOG_DROP of its severity (R267, R271, R272). -/
def State.dropRec (s : State) (sev : BitVec 3) : State :=
  { s with log := { s.log with drop := upd s.log.drop (idx sev.toNat) (satAdd · 1), lossDue := true } }

/-- One record of a posted group enters staging with the evictions for it (R267, R271). -/
def stageOne (cfg : Word) (p : Posted) (payload : List Word) (l : LogSt) : Option LogSt :=
  let seq := p.sumSeq.getD l.seq
  let bs := recBytes p.stamp p.code p.sev p.sumSeq.isSome seq payload
  let used := (l.staged.map (·.bytes.length)).foldl (· + ·) 0
  if used + bs.length > 4096 then none
  else
    let marked := markedN l
    let vTail := ((l.ents.drop marked).head?.map (·.pos)).getD l.head
    let vHead := virtHead l
    let need := needAt vHead bs.length
    match evictCount cfg l.rel p.sev (l.ents.drop marked) (logRing - (vHead - vTail)) need 0 with
    | none => none
    | some n =>
      some { l with staged := l.staged ++ [{ bytes := bs, sev := p.sev, seq := seq, evict := n }],
                    full := n != 0,
                    seq := if p.sumSeq.isSome then l.seq else l.seq + 1 }

/-- A series is staged as a whole or not at all (R424). -/
def stageAll (cfg : Word) (p : Posted) : List (List Word) → LogSt → Option LogSt
  | [], l => some l
  | pl :: ps, l => (stageOne cfg p pl l).bind (stageAll cfg p ps)

/-- A record enters staging, or is dropped where it does not fit (R267, R271, R424) (notes/assumptions/37.md). -/
def State.stage (s : State) (p : Posted) : State × Fate :=
  match stageAll (s.reg logCfg) p p.payloads s.log with
  | some l => ({ s with log := l }, .admitted (p.sumSeq.getD s.log.seq))
  | none => (s.dropRec p.sev, .dropped)

/-- The entry's window, open: one that has expired belongs to the past (R6), and its summary is owed. -/
def State.openWin (s : State) (i : Fin 64) : LogSt :=
  let w := s.log.win[i]
  let l := if w.isOpen && decide (w.stop ≤ s.now) then closeWin s.log i (bits (s.reg (rateAddr i.val 0)) 0 12) s.now else s.log
  let len := max 1 (fld (s.reg (rateAddr i.val 1)) 0 24)
  if l.win[i].isOpen then l else { l with win := l.win.set i { isOpen := true, stop := s.now + len } }

/-- A record beyond the limit of its window is counted, and the first reserves the summary's sequence number (R268, R269). -/
def suppressed (l : LogSt) (i : Fin 64) (p : Posted) : LogSt × BitVec 16 :=
  let w := l.win[i]
  let first := w.supp == 0
  let res := if first then l.seq else w.reserved
  let w1 := { w with supp := w.supp + 1, reserved := res, first := if first then p.stamp else w.first, last := p.stamp,
                     sev := if first || decide (w.sev.toNat < p.sev.toNat) then p.sev else w.sev }
  ({ l with win := l.win.set i w1, seq := if first then l.seq + 1 else l.seq, supp := satAdd l.supp 1 }, res)

/-- A posted record passes the filter, the rate limit and staging (R267, R268) (notes/assumptions/37.md). -/
def State.offerRec (s : State) (p : Posted) : State × Fate :=
  if p.sev.toNat < fld (s.reg logCfg) 0 3 then (s.dropRec p.sev, .dropped)
  else if p.sumSeq.isSome then s.stage p
  else match s.rateEntry p.code with
    | none => s.stage p
    | some i =>
      let l := s.openWin i
      let w := l.win[i]
      if w.stored < fld (s.reg (rateAddr i.val 0)) 16 8 then
        State.stage { s with log := { l with win := l.win.set i { w with stored := w.stored + 1 } } } p
      else ({ s with log := (suppressed l i p).1 }, .suppressed (suppressed l i p).2)

/-- Rank of a posted record within one cycle: summaries, device events by code, thread F, thread B (R267). -/
def Posted.rank (p : Posted) : Nat :=
  match p.org with
  | .summary => 0
  | .device => 1 + p.code.toNat
  | .F => 5000
  | .B => 5001

/-- Insertion by rank, stable. -/
def insRank (p : Posted) : List Posted → List Posted
  | [] => [p]
  | q :: qs => if p.rank < q.rank then p :: q :: qs else q :: insRank p qs

/-- The records of one cycle are staged in the order of R267. -/
def State.stageGroup (s : State) (ps : List Posted) : State :=
  (ps.foldl (fun acc p => insRank p acc) []).foldl (fun s p => (s.offerRec p).1) s

/-- The records held of an earlier cycle are staged: that cycle is over (R267). -/
def State.past (s : State) : State :=
  if s.log.heldAt = s.cycle then s
  else match s.log.held with
    | [] => s
    | ps => State.stageGroup { s with log := { s.log with held := [] } } ps

/-- Every record posted is staged, with those held of the same cycle (R267; notes/assumptions/37.md). -/
def State.flush (s : State) : State :=
  let s := s.past
  match s.log.held ++ s.log.posted with
  | [] => s
  | ps => State.stageGroup { s with log := { s.log with held := [], posted := [] } } ps

/-- The records of this cycle up to a rank are staged; those of a higher rank wait for the rest of the cycle (R267, R276). -/
def State.flushTo (s : State) (rank : Nat) : State :=
  let s := s.past
  let ps := s.log.held ++ s.log.posted
  State.stageGroup { s with log := { s.log with held := ps.filter fun p => decide (rank < p.rank), heldAt := s.cycle, posted := [] } }
    (ps.filter fun p => decide (p.rank ≤ rank))

/-- The records of a row wait for the other rows of their cycle; those of an earlier cycle are staged (R267; notes/assumptions/37.md). -/
def State.settle (s : State) : State :=
  let s := s.past
  match s.log.posted with
  | [] => s
  | ps => { s with log := { s.log with held := s.log.held ++ ps, heldAt := s.cycle, posted := [] } }

/-- Every meaning ends with the records it posted held while their cycle lasts. -/
def finish (s : State) : Host.Outcome State Fault Refusal := .next s.settle

/-- Bytes of a pad record or of filler of `n` bytes: code 0 and the length are stated, the rest is free (R266) (notes/assumptions/9.md, 37.md). -/
def padBytes (ctr n : Nat) : List Byte :=
  (List.range n).map fun i =>
    if 12 ≤ n ∧ (i = 6 ∨ i = 7 ∨ i = 9) then 0
    else if 12 ≤ n ∧ i = 8 then BitVec.ofNat 8 ((n - 12) / 4)
    else Config.freeByte (ctr + i)

/-- Evictions decided at staging are carried out (R271). -/
def evictN : Nat → LogSt → LogSt
  | 0, l => l
  | n + 1, l =>
    match l.ents with
    | [] => l
    | e :: es =>
      let t := e.pos + e.len
      evictN n { l with ents := es, tail := t, rel := max l.rel t, evict := if e.real then satAdd l.evict 1 else l.evict }

/-- LOG_RING_WRITE: the oldest staged record goes into the ring (R266, R267 step 5) (notes/assumptions/37.md). -/
def State.ringWrite (s : State) : State :=
  let s := s.flush
  match s.log.staged with
  | [] => s
  | r :: rs =>
    let l := evictN r.evict { s.log with staged := rs }
    let o := l.head % logRing
    let n := r.bytes.length
    let gap := if o + n > logRing then logRing - o else 0
    let mem := if gap = 0 then s.mem else memPut s.mem (logBase + o) (padBytes s.freeCtr gap)
    let pos := l.head + gap
    let ents := l.ents ++ (if gap = 0 then [] else [{ pos := l.head, len := gap, sev := 0, real := false }]) ++
      [{ pos := pos, len := n, sev := r.sev, real := true, seq := r.seq }]
    { s with mem := memPut mem (logBase + pos % logRing) r.bytes, freeCtr := s.freeCtr + gap,
             log := { l with head := pos + n, ents := ents } }

/-- A summary record (R269). -/
def State.postSummary (s : State) (o : OwedSummary) : State :=
  { s with log := { s.log with posted := s.log.posted ++
      [{ org := .summary, code := o.code, sev := o.sev, stamp := s.time.tick, sumSeq := some o.reserved,
         payloads := [[nw o.supp, o.first.setWidth 32, o.last.setWidth 32,
                       at_ ((o.first >>> 32).setWidth 16 : Half) 0 ||| at_ ((o.last >>> 32).setWidth 16 : Half) 16]] }] } }

/-- RATE_WINDOW_EXPIRE: the entry's expired window closes and every summary of the entry that is due is posted (R268, R269) (notes/assumptions/1.md, 37.md). -/
def State.rateExpire (s : State) (i : Fin 64) : State :=
  let w := s.log.win[i]
  let s := if w.isOpen && decide (w.stop ≤ s.now) then { s with log := closeWin s.log i (bits (s.reg (rateAddr i.val 0)) 0 12) s.now } else s
  let due := s.log.owed.filter fun o => o.entry = i && decide (o.due ≤ s.now)
  let s := { s with log := { s.log with owed := s.log.owed.filter fun o => !(o.entry = i && decide (o.due ≤ s.now)) } }
  due.foldl State.postSummary s

/-- A write to word 0 or 1 of LOG_RATE[i] (R268): the open window closes, its summary due in the next tick. -/
def State.rateWrite (s : State) (i : Fin 64) (w1 : Bool) (v : Word) : State :=
  let code := bits (s.reg (rateAddr i.val 0)) 0 12
  let s := { s with log := closeWin s.log i code (s.now + 1) }
  if w1 then s.setReg (rateAddr i.val 1) (v &&& 0x00FFFFFF) else s.setReg (rateAddr i.val 0) (v &&& 0x80FF0FFF)

/-- LOG_REL: the release point, or the head while every record is released (R274). -/
def LogSt.relOfs (l : LogSt) : Nat := (if l.ents.all fun e => !e.real || decide (e.pos < l.rel) then l.head else l.rel) % logRing

/-- A write to LOG_REL, the bytes not written as they read (R274, R27). -/
def State.relWrite (s : State) (v lane : Word) : State :=
  let l := s.log
  let o := (merge (nw l.relOfs) v lane).toNat % logRing
  if l.tail < l.head ∧ o = l.head % logRing then { s with log := { l with rel := l.head } }
  else
    let p := l.tail + (o + logRing - l.tail % logRing) % logRing
    if p > l.head then { s with log := { l with relErr := true } }
    else { s with log := { l with rel := max l.rel p } }

/-- LOG_CLR: the drop, suppression and eviction counters clear (R272). -/
def State.logClear (s : State) : State :=
  { s with log := { s.log with drop := Vector.replicate 8 0, supp := 0, evict := 0 } }

/-- LOG_LOSS at a slow-frame boundary (R272) (notes/assumptions/37.md). -/
def State.lossPost (s : State) : State :=
  if s.log.lossDue then ({ s with log := { s.log with lossDue := false } }).dev 0x055 4 s.log.drop.toList else s

/-- LOG_EPOCH (R265). -/
def State.postEpoch (s : State) : State := s.dev 0x050 2 (s.time.epoch.setWidth 32 :: tickWords s.time.tick)

/-- Reads of the recorder's status registers. -/
def State.logRead (s : State) (o : Nat) : Word :=
  let l := s.log
  if o = 0x04 then bw l.relErr 17 ||| bw l.full 16 ||| l.seq.setWidth 32
  else if o = 0x08 then nw (l.head % logRing)
  else if o = 0x0C then nw (l.tail % logRing)
  else if o = 0x10 then nw l.relOfs
  else if o = 0x14 then nw (l.head - l.tail)
  else if 0x20 ≤ o ∧ o < 0x40 then l.drop[(idx ((o - 0x20) / 4) : Fin 8)]
  else if o = 0x40 then l.supp
  else if o = 0x44 then l.evict
  else if 0x100 ≤ o ∧ o < 0x500 then
    let w := l.win[(idx ((o - 0x100) / 16) : Fin 64)]
    if w.isOpen && decide (s.now < w.stop) then bw true 31 ||| nw (min w.stored 255) <<< 16 ||| nw (min w.supp 65535) else 0
  else if o = 0x508 then
    let b := l.bb
    bw b.busy 31 ||| bw b.finished 30 ||| bw b.skipped 29 ||| bw b.fresh 28 ||| bw b.valid 27 ||| bw b.slot 26 ||| b.pages.setWidth 32
  else if o = 0x50C then l.bb.seq
  else 0

/-- Writes of the recorder's own registers (`v` holds only the bytes written). -/
def State.logWrite (s : State) (o : Nat) (v lane : Word) : State :=
  if o = 0x04 then (if bit v 17 then { s with log := { s.log with relErr := false } } else s)
  else if o = 0x10 then s.relWrite v lane
  else if o = 0x48 then (if bit v 0 then s.logClear else s)
  else s

end Sys2Proof.Machine
end

