-- ==== Sys2Proof/Machine/Curve.lean ====
section
/-! DEFINITION. Memory errors on reads (01 R29, R30) and curve evaluation (04 R110, R111). -/

namespace Sys2Proof.Machine

/-- An error on the read of the word at `a` by the reader `who` (01 R29, R30): the state, and whether the word is uncorrectable (notes/assumptions/59.md). -/
def State.eccRead (s : State) (a : Nat) (who : Word) : State × Bool :=
  match sget s.ecc (a - a % 4) with
  | none => (s, false)
  | some .corr => (({ s with sys := { s.sys with eccCorr := satAdd s.sys.eccCorr 1 } }).dev 0x018 1 [], false)
  | some .uncorr =>
    (({ s with sys := { s.sys with eccUncorr := true, eccAddr := if s.sys.eccUncorr then s.sys.eccAddr else nw (a - a % 4) } }).dev 0x019 6
      [nw (a - a % 4), who], true)

/-- Words read in turn by the reader `who`: the state, and whether one of them is uncorrectable (notes/assumptions/59.md). -/
def State.readAll (s : State) (who : Word) (as : List Nat) : State × Bool :=
  as.foldl (fun (r : State × Bool) a => let q := r.1.eccRead a who; (q.1, r.2 || q.2)) (s, false)

/-- The installed table of a type and id (04 R95). -/
def State.table (s : State) (typ : BitVec 3) (id : Nat) : Option Tbl := s.seq.tbls.find? fun t => t.typ = typ && t.id.toNat = id

/-- Points of a curve: x, y, slope. -/
def State.curvePt (s : State) (t : Tbl) (i : Nat) : Word × Word × Word :=
  (s.word (t.addr + 20 + 12 * i), s.word (t.addr + 24 + 12 * i), s.word (t.addr + 28 + 12 * i))

/-- The largest index at or below `i` whose x does not exceed `a`. -/
def State.curveSeg (s : State) (t : Tbl) (a : Word) : Nat → Nat
  | 0 => 0
  | i + 1 => if fpLe (s.curvePt t (i + 1)).1 a then i + 1 else s.curveSeg t a i

/-- The value of an installed curve (R111) and the flags of its rounding. -/
def State.curveVal (s : State) (t : Tbl) (a : Word) : Word × BitVec 6 :=
  let n := fld (s.word (t.addr + 16)) 0 16
  let y0 := (s.curvePt t 0).2.1
  if fIsNaN a then (y0, fpNv)
  else if fpLt a (s.curvePt t 0).1 then (y0, 0)
  else if fpGe a (s.curvePt t (n - 1)).1 then ((s.curvePt t (n - 1)).2.1, 0)
  else
    let (x, y, m) := s.curvePt t (s.curveSeg t a (n - 1))
    if fpEq a x then (y, 0)
    else
      let (d, f1) := fpSub a x
      let (v, f2) := fpMac y d m
      (v, f1 ||| f2)

/-- Addresses that the evaluation of a curve reads: the count, the x of points as they are compared, and the point taken
(notes/assumptions/59.md). -/
def State.curveAddrs (s : State) (t : Tbl) (a : Word) : List Nat :=
  let n := fld (s.word (t.addr + 16)) 0 16
  let pt (i k : Nat) : Nat := t.addr + 20 + 12 * i + 4 * k
  let count := t.addr + 16
  if fIsNaN a then [count, pt 0 1]
  else if fpLt a (s.curvePt t 0).1 then [count, pt 0 0, pt 0 1]
  else if fpGe a (s.curvePt t (n - 1)).1 then [count, pt 0 0, pt (n - 1) 0, pt (n - 1) 1]
  else
    let g := s.curveSeg t a (n - 1)
    let xs := (List.range (n - 1)).filterMap fun i => if 0 < i ∧ g ≤ i then some (pt i 0) else none
    [count, pt 0 0, pt (n - 1) 0] ++ xs ++ [pt g 1, pt g 2]

/-- A curve evaluated by a reader: corrected words are counted; an uncorrectable one makes the value 0 (01 R29, R30). -/
def State.curveRead (s : State) (who : Word) (t : Tbl) (a : Word) : State × (Word × BitVec 6) × Bool :=
  let r := s.readAll who (s.curveAddrs t a)
  (r.1, if r.2 then (0, 0) else s.curveVal t a, r.2)

end Sys2Proof.Machine
end

