-- ==== Sys2Proof/Machine/Msg.lean ====
section
/-! DEFINITION. Stack messages (16 R335) and the transmit queues (R338). -/

namespace Sys2Proof.Machine

/-- Byte `i` of a message. -/
def mByte (m : Msg) (i : Nat) : Byte := bits m (8 * i) 8
def mClass (m : Msg) : Byte := mByte m 0
def mType (m : Msg) : Byte := mByte m 1
def mDest (m : Msg) : BitVec 14 := bits m 16 14
def mSrc (m : Msg) : BitVec 14 := bits m 32 14
def mBytes (m : Msg) : List Byte := leBytes 16 m.toNat
/-- The CRC-16 over bytes 0-13 stands in bytes 14-15. -/
def mCrcOk (m : Msg) : Bool := crc16 ((mBytes m).take 14) == bits m 112 16

/-- A message built from its fields; its payload is filled with zeros to 8 bytes. -/
def mkMsg (cls typ : Byte) (dest src : Nat) (pay : List Byte) : Msg :=
  let b := [cls, typ] ++ leBytes 2 dest ++ leBytes 2 src ++ (pay ++ List.replicate 8 0).take 8
  BitVec.ofNat 128 (leNat (b ++ leBytes 2 (crc16 b).toNat))

/-- The controller's own node id (16 STK_NODE). -/
def State.node (s : State) : Nat := fld (s.reg 0xB0004) 0 14

def State.modPort (s : State) (p : Fin 4) (f : StkPortSt → StkPortSt) : State :=
  { s with link := { s.link with port := upd s.link.port p f } }

/-- Port present, enabled and UP. -/
def State.portUp (s : State) (p : Fin 4) : Bool := p.val < s.nPorts && s.link.port[p].st == 2

/-- The UP port whose far end is a node: the lowest-numbered. -/
def State.route (s : State) (n : BitVec 14) : Option (Fin 4) := (fins 4).find? fun p => s.portUp p && s.link.port[p].far == n

/-- A message joins its class's transmit queue. -/
def State.stkPush (s : State) (p : Fin 4) (cls : Fin 4) (m : Msg) : State :=
  s.modPort p fun q => { q with txq := upd q.txq cls (· ++ [m]) }

/-- Words 0 and 1 of a message's payload. -/
def mPay0 (m : Msg) : Word := bits m 48 32
def mPay1 (m : Msg) : Word := bits m 80 32

/-- Two messages of one transfer to one node: same destination and xid. -/
def sameXfer (a b : Msg) : Bool := mDest a == mDest b && mPay0 a == mPay0 b

/-- Size of a class's receive partition and of its transmit queue (R338). -/
def partSize (c : Fin 4) : Nat := if c.val = 0 ∨ c.val = 3 then 28 else 16

/-- The messages of a list, that of the same record replaced. -/
def swapXfer (m : Msg) (l : List Msg) : List Msg := l.map fun o => if sameXfer m o then m else o

/-- A sender's message joins EMB_REQ; one of the same record that still waits is replaced by it (18 R383: at most one message
of each record waits), and while the queue is full it stays due (R338). -/
def State.reqPush (s : State) (p : Fin 4) (m : Msg) : State :=
  s.modPort p fun q =>
    let l := q.txq[(2 : Fin 4)]
    if l.any (sameXfer m) then { q with txq := q.txq.set 2 (swapXfer m l) }
    else if q.dues.any (sameXfer m) then { q with dues := swapXfer m q.dues }
    else if partSize 2 ≤ l.length then { q with dues := q.dues ++ [m] }
    else { q with txq := q.txq.set 2 (l ++ [m]) }

/-- Messages that stayed due take the places that a frame has left in CTRL and EMB_REQ. -/
def StkPortSt.fillReq (q : StkPortSt) : StkPortSt :=
  let l := q.txq[(2 : Fin 4)]
  let n := partSize 2 - l.length
  let c := q.txq[(0 : Fin 4)]
  let m := partSize 0 - c.length
  { q with txq := (q.txq.set 2 (l ++ q.dues.take n)).set 0 (c ++ q.ctrlDues.take m), dues := q.dues.drop n, ctrlDues := q.ctrlDues.drop m }

/-- A CTRL message of hardware joins its queue, or stays due while the queue is full (R338) (notes/assumptions/45.md). -/
def State.ctrlPush (s : State) (p : Fin 4) (m : Msg) : State :=
  if s.link.port[p].txq[(0 : Fin 4)].length < partSize 0 then s.stkPush p 0 m else s.modPort p fun q => { q with ctrlDues := q.ctrlDues ++ [m] }

/-- A reply joins EMB_RSP unless one to the same source and xid still waits (18 R383). -/
def State.rspPush (s : State) (p : Fin 4) (m : Msg) : State :=
  s.modPort p fun q =>
    let l := q.txq[(1 : Fin 4)]
    { q with txq := q.txq.set 1 (if l.any (sameXfer m) then l else l ++ [m]) }

/-- An Ember message joins its class's queue. -/
def State.embPush (s : State) (p cls : Fin 4) (m : Msg) : State :=
  if cls = 1 then s.rspPush p m else if cls = 2 then s.reqPush p m else s.stkPush p cls m

end Sys2Proof.Machine
end

