-- ==== Sys2Proof/Machine/Emb.lean ====
section
/-! DEFINITION. The Ember pool: counters, holders, revocation and enforcement, transfers, the check of the pool, and what a
paired active withholds (09_embers.md, 17 R355). -/

namespace Sys2Proof.Machine

/-- A count moved by a signed amount; the complement moves against it, so a mismatch stays visible to the check (R212, R213). -/
def Cnt.add (k : Cnt) (d : Word) : Cnt := { v := k.v + d, c := k.c - d }
def Cnt.sub (k : Cnt) (d : Word) : Cnt := { v := k.v - d, c := k.c + d }
/-- The complement check. -/
def Cnt.ok (k : Cnt) : Bool := k.c == ~~~ k.v

def wmin (a b : Word) : Word := if a.toNat ≤ b.toNat then a else b

def State.modHold (s : State) (h : Fin 256) (f : HolderSt → HolderSt) : State := { s with emb := { s.emb with hold := upd s.emb.hold h f } }
def State.modXfer (s : State) (i : Fin 32) (f : XferSt → XferSt) : State := { s with emb := { s.emb with xfer := upd s.emb.xfer i f } }

/-- Address of word `i` of EMB_HOLDER[h] (R217). -/
def holdA (h i : Nat) : Nat := 0x61000 + 64 * h + 4 * i
def State.hCfg (s : State) (h : Fin 256) : Word := s.reg (holdA h.val 0)
def State.hOpen (s : State) (h : Fin 256) : Bool := bit (s.hCfg h) 31
def State.hGroup (s : State) (h : Fin 256) : Nat := fld (s.hCfg h) 24 4
def State.hFloor (s : State) (h : Fin 256) : Word := s.reg (holdA h.val 6)
def State.hLease (s : State) (h : Fin 256) : Nat := (s.reg (holdA h.val 1)).toNat
def State.embCfg (s : State) : Word := s.reg 0x60004
def State.tRetry (s : State) : Nat := max 1 (fld s.embCfg 16 8)

/-- The Ember unit is halted in a standby and until a new active resumes it (01 R37, 09 R234). -/
def State.embHalted (s : State) : Bool := s.pr.role == .syncing || s.pr.role == .synced || s.pr.resumeAt.isSome

/-- No program, host or Stack operation is admitted: halted, before a swap, or while the Ember state is sent (17 R367, R369). -/
def State.embHold (s : State) : Bool :=
  s.embHalted || s.pr.snapEmb ||
  (s.pr.role == .active && s.pr.swapAnn && (match s.pr.swapAt with | some b => decide (b ≤ s.now + 2) | none => false))

/-- An Ember operation may be applied now (17 R355: at most 6 in a tick of a paired active) (notes/assumptions/25.md). -/
def State.embAdmit (s : State) : Bool := !s.embHold && (s.pr.role != .active || decide (s.emb.ops < 6))

/-- Effects that another party could rely on wait for the standby's acknowledgement (R233). -/
def State.withholds (s : State) : Bool := s.pr.role == .active && !s.pr.solo

/-- One operation of R215: its changes, and seq and the tick's count with them (R214); uncovered clears when debt falls to 0 (R225) (notes/assumptions/25.md). -/
def State.embOp (s : State) (f : EmbSt → EmbSt) : State :=
  let e := f s.emb
  { s with emb := { e with seq := e.seq + 1, ops := e.ops + 1, uncovered := e.uncovered && e.debt.v != 0 } }

/-- An entry of the mirror's EMB record (17 R353). -/
def State.embEntry (s : State) (op idx : Byte) (src : Nat) (a w : Word) : State :=
  if s.pr.role == .active then
    { s with emb := { s.emb with entries := s.emb.entries ++ [[op, idx] ++ leBytes 2 src ++ wBytes a ++ wBytes w] } }
  else s

/-- The src field of an initiator. -/
def iniNum : Initiator → Nat
  | .F => 0 | .B => 1 | .spi => 2 | .twi0 => 3

def State.hold_ (s : State) (e : Withheld) : State := { s with emb := { s.emb with held := s.emb.held ++ [(s.now, e)] } }

/-! ### SLOW_N (R224) -/

def State.zCfg (s : State) (z : Fin 8) : Word := s.reg (0x40400 + 0x40 * z.val)
def State.zOn (s : State) (z : Fin 8) : Bool := bit (s.zCfg z) 31
def State.zHot (s : State) (z : Fin 8) : Bool := s.zOn z && s.thm.zone[z].level != 0

/-- The sources of SLOW_N. -/
def State.slowWant (s : State) : BitVec 16 :=
  if s.emb.frozen then 0xFFFF
  else
    let m : BitVec 16 := bits (s.reg 0x60048) 0 16
    let m := (fins 256).foldl (fun (m : BitVec 16) (h : Fin 256) =>
      let r := s.emb.hold[h].rstate
      if r = .ask ∨ r = .enforce then m ||| (1 : BitVec 16) <<< s.hGroup h else m) m
    (fins 8).foldl (fun (m : BitVec 16) (z : Fin 8) => if s.zHot z then m ||| bits (s.zCfg z) 0 16 else m) m

/-- SLOW_N as driven: the sources, and the deassertions withheld (R233). -/
def State.slowPins (s : State) : BitVec 16 :=
  s.emb.held.foldl (fun m (_, e) => match e with | .slow k => m ||| k | _ => m) s.slowWant

/-- Deassertions since `before` are withheld in a paired active (R224, R233). -/
def State.withSlow (s : State) (before : BitVec 16) : State :=
  let drop := before &&& ~~~ s.slowWant
  if s.withholds && drop != 0 then s.hold_ (.slow drop) else s

/-! ### Enforcement writes (R222, R223) -/

/-- The holder needs its allowance written. -/
def State.wantsWrite (s : State) (h : Fin 256) : Bool :=
  let r := s.emb.hold[h]
  s.hOpen h && (r.enforced || (r.rstate == .enforce && bit (s.hCfg h) 23))

/-- A new allowance of `w` watts waits for its first attempt: a higher one until the retry that is pending falls due (R222)
(notes/assumptions/27.md). -/
def State.newLimit (s : State) (h : Fin 256) (w : Word) : State :=
  if s.wantsWrite h then
    s.modHold h fun r =>
      let up := decide (r.enf.want.toNat < w.toNat)
      { r with enf := { r.enf with need := true, want := w, rise := up, retryAt := if up then r.enf.retryAt else none } }
  else s

/-- A higher allowance of the holder waits for the standby's acknowledgement. -/
def State.limitHeld (s : State) (h : Fin 256) : Bool := s.emb.held.any fun e => match e.2 with | .limit g _ => g == h | _ => false

/-- grant[h] has fallen: a lower limit is written at once; while a higher one is withheld, only a limit below the last one (R223, R233)
(notes/assumptions/27.md). -/
def State.lowerLimit (s : State) (h : Fin 256) : State :=
  let r := s.emb.hold[h]
  if s.limitHeld h && decide (r.enf.want.toNat ≤ r.grant.v.toNat) then s else s.newLimit h r.grant.v

/-- grant[h] has changed: the allowance is written; a higher one after the standby's acknowledgement (R223, R233). -/
def State.limitChanged (s : State) (h : Fin 256) (higher : Bool) : State :=
  let g := s.emb.hold[h].grant.v
  if higher && s.withholds then (if s.wantsWrite h then s.hold_ (.limit h g) else s) else s.newLimit h g

/-- The holder enters ENFORCE, or WAIT with enf_en = 0 (R221, R222). -/
def State.enterEnforce (s : State) (h : Fin 256) : State :=
  if bit (s.hCfg h) 23 then
    let s := s.modHold h fun r => { r with rstate := .enforce, enf := { r.enf with acked := false } }
    let e := s.emb.hold[h].enf
    let fits := decide (e.sent.toNat ≤ s.emb.hold[h].grant.v.toNat)
    if e.need || (e.onBus && fits) then s
    else if e.retryAt.isSome && fits then s.modHold h fun r => { r with enf := { r.enf with retryAt := some s.now } }
    else s.lowerLimit h
  else s.modHold h fun r => { r with rstate := .wait }

/-! ### Operations of R215 -/

/-- The reason that a program's mint or burn carries (R216). -/
def embReason (r : Byte) : Byte := if r = 2 ∨ r = 6 then 0 else r

/-- Status of a mint, and the mint (R215). -/
def State.embMint (s : State) (w : Word) (reason : Byte) : State × BitVec 4 :=
  let a := wmin w s.emb.debt.v
  if s.emb.frozen then (s, 1)
  else if w = 0 then (s, 3)
  else if 2 ^ 32 ≤ s.emb.total.v.toNat + (w - a).toNat then (s, 1)
  else
    let s := s.embOp fun e => { e with debt := e.debt.sub a, total := e.total.add (w - a), free := e.free.add (w - a) }
    (s.dev 0x400 2 [w, (embReason reason).setWidth 32, a, s.emb.total.v], 0)

/-- A program burn (R215). -/
def State.embBurn (s : State) (w : Word) (reason : Byte) : State × BitVec 4 :=
  if s.emb.frozen then (s, 1)
  else if w = 0 then (s, 3)
  else if s.emb.free.v.toNat < w.toNat then (s, 1)
  else
    let s := s.embOp fun e => { e with free := e.free.sub w, total := e.total.sub w }
    (s.dev 0x401 3 [w, (embReason reason).setWidth 32, 0, s.emb.total.v], 0)

/-- The lowest cap of the zones at level 2 that hold group `m` (10 R241). -/
def State.thmCap (s : State) (m : Nat) : Option Word :=
  (fins 8).foldl (fun (o : Option Word) (z : Fin 8) =>
    if s.zOn z && s.thm.zone[z].level == 2 && bit (s.zCfg z) m then
      let c := s.reg (0x4041C + 0x40 * z.val)
      some (match o with | some x => wmin x c | none => c)
    else o) none

/-- The lease window of a grant or renewal opens (R220) (notes/assumptions/26.md). -/
def State.openLease (s : State) (h : Fin 256) : State :=
  if s.hLease h = 0 then s else s.modHold h fun r => { r with lease := some (s.now + s.hLease h) }

/-- A revocation begins (R215, R221): origin 0 EREVK, 1 lease, 2 debt (notes/assumptions/12.md, 26.md). -/
def State.revoke (s : State) (h : Fin 256) (w : Word) (origin : Nat) (grace0 : Bool) : State :=
  let before := s.slowWant
  let s := (s.embOp fun e => { e with granted := e.granted.sub w, pending := e.pending.add w }).modHold h fun r =>
    { r with grant := r.grant.sub w, pend := r.pend.add w, leaseExp := origin == 1 }
  let grace := fld (s.hCfg h) 0 16
  let s : State := match s.emb.hold[h].rstate with
    | .none =>
      if grace0 || grace = 0 then s.enterEnforce h
      else s.modHold h fun r => { r with rstate := .ask, deadline := s.now + grace }
    | .ask => if grace0 then s.enterEnforce h else s
    | _ => s.enterEnforce h
  let s : State := (s.lowerLimit h).withSlow before
  let d := if s.emb.hold[h].rstate = .ask then s.emb.hold[h].deadline else s.now
  s.dev 0x403 2 ([nw h.val, w, Config.codeOf 0x403 2 origin] ++ tickWords (s.tickAt d))

/-- EREVK (R215, R221). -/
def State.embRevoke (s : State) (h : Fin 256) (w : Word) : State × BitVec 4 :=
  if s.emb.frozen then (s, 1)
  else if !s.hOpen h then (s, 2)
  else if w = 0 then (s, 3)
  else if s.emb.hold[h].grant.v.toNat < w.toNat then (s, 1)
  else (s.revoke h w 0 false, 0)

/-- Completion of the whole pend of a holder (R215, R222): how 0 acknowledgement, 1 enforcement (notes/assumptions/26.md). -/
def State.complete (s : State) (h : Fin 256) (how : Nat) : State :=
  let w := s.emb.hold[h].pend.v
  if s.emb.frozen || w = 0 then s
  else
    let a := wmin w s.emb.debt.v
    let s := (s.embOp fun e => { e with pending := e.pending.sub w, debt := e.debt.sub a, total := e.total.sub a, free := e.free.add (w - a) }).modHold h
      fun r => { r with pend := r.pend.sub w }
    s.dev 0x404 1 [nw h.val, w, Config.codeOf 0x404 2 how]

/-- Open holders in the order of a debt revocation: ascending prio, then descending h (R225). -/
def State.debtOrder (s : State) : List (Fin 256) :=
  (List.range 8).flatMap fun p => (fins 256).reverse.filter fun h => s.hOpen h && fld (s.hCfg h) 28 3 = p

/-- The debt revocation of `d` watts (R225): the state, and the holders revoked with their amounts (notes/assumptions/28.md). -/
def State.debtRevoke (s : State) (d : Word) : State :=
  let (s, need, list) := s.debtOrder.foldl (fun (acc : State × Word × List (List Word)) h =>
    let (s, need, list) := acc
    let g := s.emb.hold[h].grant.v
    let f := s.hFloor h
    if need = 0 ∨ g.toNat ≤ f.toNat then acc
    else
      let x := wmin (g - f) need
      (s.revoke h x 2 true, need - x, list ++ [[nw h.val, x]])) (s, d, [])
  let s := s.devList 0x407 5 [d] list
  if need = 0 then s else ({ s with emb := { s.emb with uncovered := true } }).dev 0x408 7 [need]

/-- A hardware burn (R215, R225). -/
def State.burnNow (s : State) (w : Word) : State :=
  if s.emb.frozen then s
  else
    let b := wmin w s.emb.free.v
    let d := w - b
    let s := s.embOp fun e => { e with free := e.free.sub b, total := e.total.sub b, debt := e.debt.add d }
    let s := s.dev 0x401 3 [w, 2, d, s.emb.total.v]
    if d = 0 then s else s.debtRevoke d

/-- The burn of a phase fault (07 R187): at once, or at the commit in a paired active (17 R355); the pool of a standby is mirrored
(01 R37). -/
def State.hwBurn (s : State) (n : Fin 48) (w : Word) : State :=
  if s.pr.role == .syncing || s.pr.role == .synced then s
  else if s.pr.role == .active then { s with emb := { s.emb with burns := s.emb.burns ++ [(n, w)] } }
  else s.burnNow w

/-- The phase-loss burns of the tick, in ascending n (17 R355). -/
def State.commitBurns (s : State) : State :=
  let bs := (fins 48).flatMap fun n => s.emb.burns.filter fun b => b.1 = n
  let s := { s with emb := { s.emb with burns := [] } }
  bs.foldl (fun (s : State) b =>
    let s := s.burnNow b.2
    { s with emb := { s.emb with burnMap := s.emb.burnMap ||| (1 : BitVec 48) <<< b.1.val } }) s

/-- The committed snapshot of a grant, in watts (R213, 08 R199). -/
def State.grantSnap (s : State) (h : Nat) : Nat := s.emb.snap[(idx h : Fin 256)].toNat

/-- The first check of R213 that fails: 1 a counter's complement, 2 a holder's, 3 the equation, 4 the sums. -/
def embBreach (e : EmbSt) : Option Nat :=
  let cs := [e.total, e.free, e.granted, e.transit, e.pending, e.debt]
  let sum (f : HolderSt → Word) : Nat := e.hold.toList.foldl (fun a h => a + (f h).toNat) 0
  if cs.any fun k => !k.ok then some 1
  else if e.hold.toList.any fun h => !h.grant.ok || !h.pend.ok then some 2
  else if e.free.v.toNat + e.granted.v.toNat + e.transit.v.toNat + e.pending.v.toNat ≠ e.total.v.toNat then some 3
  else if sum (·.grant.v) ≠ e.granted.v.toNat ∨ sum (·.pend.v) ≠ e.pending.v.toNat then some 4
  else none

/-- The check and the snapshot of cycle 599 (R213). A standby makes no check and takes the mirrored grants as its snapshot (08 R210);
the first check is that of its first active tick (R234). -/
def State.embCommit (s : State) : State :=
  if s.pr.role == .syncing || s.pr.role == .synced then { s with emb := { s.emb with snap := s.emb.hold.map fun h => h.grant.v } }
  else if s.emb.frozen then s
  else match embBreach s.emb with
    | none => { s with emb := { s.emb with snap := s.emb.hold.map fun h => h.grant.v } }
    | some k =>
      let e := s.emb
      ({ s with emb := { e with frozen := true } }).dev 0x40C 7
        [Config.codeOf 0x40C 0 k, e.total.v, e.free.v, e.granted.v, e.transit.v, e.pending.v, e.debt.v]

/-! ### Leases and deadlines (R220, R221) -/

/-- A deadline, a lease or an offer has acted: the tick's mirror carries it (R233, R234). -/
def State.embActed (s : State) : State := { s with emb := { s.emb with acted := true } }

/-- EMB_LEASE_EXP (R220) (notes/assumptions/1.md). -/
def State.leaseExp (s : State) (h : Fin 256) : State :=
  match s.emb.hold[h].lease with
  | none => s
  | some e =>
    if e ≤ s.now ∧ ¬ s.embHalted then
      let s := (s.modHold h fun r => { r with lease := none }).embActed
      let g := s.emb.hold[h].grant.v
      let f := s.hFloor h
      if s.emb.frozen || decide (g.toNat ≤ f.toNat) then s
      else (s.revoke h (g - f) 1 false).dev 0x409 4 [nw h.val, g - f]
    else s

/-- REVOKE_DEADLINE (R221). -/
def State.revokeDeadline (s : State) (h : Fin 256) : State :=
  let r := s.emb.hold[h]
  if r.rstate = .ask ∧ r.deadline ≤ s.now ∧ ¬ s.embHalted then
    let before := s.slowWant
    ((s.enterEnforce h).withSlow before).embActed
  else s

/-- A grant (R215, R220, R223, 10 R241): a lease that has run out by this tick has expired first (18 R385). -/
def State.embGrant (s : State) (h : Fin 256) (w : Word) : State × BitVec 4 :=
  let s := s.leaseExp h
  let g := s.emb.hold[h].grant.v
  let beyond := match s.thmCap (s.hGroup h) with | some c => decide (c.toNat < g.toNat + w.toNat) | none => false
  if s.emb.frozen then (s, 1)
  else if !s.hOpen h then (s, 2)
  else if w = 0 then (s, 3)
  else if s.emb.free.v.toNat < w.toNat ∨ s.emb.debt.v ≠ 0 ∨ beyond = true then (s, 1)
  else
    let s := (s.embOp fun e => { e with free := e.free.sub w, granted := e.granted.add w }).modHold h fun r => { r with grant := r.grant.add w }
    let s := s.dev 0x402 0 [nw h.val, w, g + w]
    ((s.openLease h).limitChanged h true, 0)

/-! ### Host commands (R219-R222) -/

def HostOp.num : HostOp → Nat
  | .request => 1 | .giveBack => 2 | .renew => 3 | .revokeAck => 4

/-- A host command applied: its status. -/
def State.hostOp (s : State) (op : HostOp) (h : Fin 256) (w : Word) : State × BitVec 4 :=
  if s.emb.frozen then (s, 1)
  else if !s.hOpen h then (s, 2)
  else match op with
    | .request =>
      let s := (s.evp 5).modHold h fun r => { r with req := w }
      ({ s with emb := { s.emb with reqmap := upd s.emb.reqmap (idx (h.val / 32)) (· ||| bw true (h.val % 32)) } }, 0)
    | .giveBack =>
      if w = 0 then (s, 3)
      else if s.emb.hold[h].grant.v.toNat < w.toNat then (s, 1)
      else
        let a := wmin w s.emb.debt.v
        let s := (s.embOp fun e => { e with granted := e.granted.sub w, debt := e.debt.sub a, total := e.total.sub a, free := e.free.add (w - a) }).modHold h
          fun r => { r with grant := r.grant.sub w }
        ((s.dev 0x40D 0 [nw h.val, w]).lowerLimit h, 0)
    | .renew => ((s.leaseExp h).openLease h, 0)
    | .revokeAck =>
      let s := s.revokeDeadline h
      if s.emb.hold[h].pend.v = 0 then (s, 0)
      else
        let before := s.slowWant
        let s := (s.complete h 0).modHold h fun r =>
          { r with rstate := .none,
                   enfFail := if r.rstate = .enforce then false else r.enfFail,
                   enf := { r.enf with acked := r.enf.onBus, fails := if r.rstate = .enforce then 0 else r.enf.fails,
                                       retryAt := if r.enforced then r.enf.retryAt else none, need := r.enf.need && r.enforced } }
        (s.withSlow before, 0)

/-- A host command runs: EMB_HRES, and the wait for the standby (R233). -/
def State.runHost (s0 : State) (c : HostWait) : State :=
  let r := s0.hostOp c.op c.h c.w
  let s : State := r.1
  let st := r.2
  let counted := st ≠ 0 ∨ c.op = .giveBack ∨ (c.op = .revokeAck ∧ s0.emb.hold[c.h].pend.v ≠ 0)
  let s : State := { s with emb := { s.emb with ops := if counted then s.emb.ops else s.emb.ops + 1, hres := st, hresBusy := false } }
  let s := if st = 0 then s.embEntry (BitVec.ofNat 8 (0x10 + c.op.num)) (BitVec.ofNat 8 c.h.val) (iniNum c.ini) 0 c.w else s
  if st = 0 && s.withholds then ({ s with emb := { s.emb with hresBusy := true } }).hold_ .hres else s

/-- A host command is given (R219, 17 R355): a store by thread F is refused in a paired active; the unit of a standby is halted (notes/assumptions/25.md). -/
def State.hostCmd (s : State) (ini : Initiator) (op : HostOp) (h : Fin 256) (w : Word) : State :=
  if ini = .F ∧ s.pr.role = .active then s.flagErr errLocked 0x60054
  else if s.emb.hresBusy || s.pr.role == .syncing || s.pr.role == .synced then s
  else if s.embAdmit then s.runHost { ini := ini, op := op, h := h, w := w }
  else { s with emb := { s.emb with hresBusy := true, waitHost := some { ini := ini, op := op, h := h, w := w } } }

/-! ### Transfers (R226-R231) -/

/-- An Ember message's payload: xid or amount, then W or reason. -/
def embPay (a b : Word) : List Byte := wBytes a ++ wBytes b
def State.embReq (s : State) (node : BitVec 14) (typ : Byte) (a b : Word) : Msg := mkMsg 3 typ node.toNat s.node (embPay a b)
def State.embRsp (s : State) (node : BitVec 14) (typ : Byte) (a b : Word) : Msg := mkMsg 2 typ node.toNat s.node (embPay a b)

/-- ACCEPT, REJECT, DONE and COMMIT leave once the standby has acknowledged (R233). -/
def State.sendLate (s : State) (p cls : Fin 4) (m : Msg) : State :=
  if s.withholds then
    if s.emb.held.any fun (_, e) => (match e with | .send q c o => q == p && c == cls && sameXfer m o | _ => false) then s
    else s.hold_ (.send p cls m)
  else s.embPush p cls m

/-- A record's state has changed: event 0x40A and evpend.emb (R229). -/
def State.xferMoved (s : State) (i : Fin 32) (x : XferSt) (st : Nat) : State :=
  (s.evp 5).dev 0x40A 2 [nw i.val, x.xid, x.node.setWidth 32, x.w, nw st]

/-- Whether a zone is at level 1 or 2 (10 R240). -/
def State.anyHot (s : State) : Bool := (fins 8).any s.zHot

/-- EXFER (R215, R226, R229, 10 R240) (notes/assumptions/26.md). -/
def State.embXfer (s : State) (w : Word) (node : BitVec 14) : State × BitVec 4 :=
  if s.emb.frozen then (s, 1)
  else if w = 0 then (s, 4)
  else if s.emb.free.v.toNat < w.toNat ∨ (s.anyHot ∧ (s.reg 0x40018).toNat < w.toNat) then (s, 1)
  else match s.route node with
    | none => (s, 2)
    | some p =>
      match (fins 32).find? fun i => s.emb.xfer[i].dir == 0 with
      | none => (s, 3)
      | some i =>
        let x : XferSt := { dir := 1, st := 1, port := BitVec.ofNat 2 p.val, node := node, xid := s.emb.xid, w := w, opened := s.time.tick.setWidth 32,
                            retryAt := s.now + s.tRetry, offerEnd := s.now + max 1 (fld s.embCfg 0 16) }
        let s := (s.embOp fun e => { e with free := e.free.sub w, transit := e.transit.add w, xid := e.xid + 1 }).modXfer i fun _ => x
        ((s.reqPush p (s.embReq node 1 x.xid w)).xferMoved i x 1, 0)

/-- The record of (direction, node, xid). -/
def State.findXfer (s : State) (dir : BitVec 2) (node : BitVec 14) (xid : Word) : Option (Fin 32) :=
  (fins 32).find? fun i => let x := s.emb.xfer[i]; x.dir == dir && x.node == node && x.xid == xid

/-- OFFER_TIMEOUT (R229). -/
def State.offerTimeout (s : State) (i : Fin 32) : State :=
  let x := s.emb.xfer[i]
  if x.dir = 1 ∧ x.st = 1 ∧ x.offerEnd ≤ s.now ∧ ¬ s.embHalted then
    let s := s.modXfer i fun x => { x with st := 2, retryAt := s.now + s.tRetry }
    ((s.reqPush (idx x.port.toNat) (s.embReq x.node 3 x.xid 0)).xferMoved i x 2).embActed
  else s

/-- The record of an outgoing transfer to a node, its offer's window run out first (18 R385). -/
def State.outXfer (s : State) (node : BitVec 14) (xid : Word) : State × Option (Fin 32) :=
  match s.findXfer 1 node xid with
  | none => (s, none)
  | some i => (s.offerTimeout i, some i)

/-- The mirror's code of a received message. -/
def EmbMsg.num : EmbMsg → Nat
  | .offer => 0x21 | .commit => 0x22 | .cancel => 0x23 | .ask => 0x24 | .accept => 0x31 | .reject => 0x32 | .finished => 0x33

/-- An OFFER (R228, R215). -/
def State.rxOffer (s : State) (p : Fin 4) (src : BitVec 14) (xid w : Word) : State :=
  match s.findXfer 2 src xid with
  | some i => s.sendLate p 1 (s.embRsp src 0x81 xid s.emb.xfer[i].w)
  | none =>
    let a := wmin w s.emb.debt.v
    let reject (r : Word) : State := s.sendLate p 1 (s.embRsp src 0x82 xid r)
    if !(bit s.embCfg 31 && bit s.embCfg 30) then reject 1
    else match (fins 32).find? fun i => s.emb.xfer[i].dir == 0 with
      | none => reject 2
      | some i =>
        if 2 ^ 32 ≤ s.emb.total.v.toNat + (w - a).toNat then reject 3
        else
          let s := (s.embOp fun e => { e with debt := e.debt.sub a, total := e.total.add (w - a), free := e.free.add (w - a) }).modXfer i fun _ =>
            { dir := 2, st := 1, port := BitVec.ofNat 2 p.val, node := src, xid := xid, w := w, opened := s.time.tick.setWidth 32 }
          s.sendLate p 1 (s.embRsp src 0x81 xid w)

/-- A COMMIT (R228). -/
def State.rxCommit (s : State) (p : Fin 4) (src : BitVec 14) (xid : Word) : State :=
  let s := match s.findXfer 2 src xid with
    | some i => s.modXfer i fun _ => {}
    | none => s
  s.sendLate p 1 (s.embRsp src 0x83 xid 0)

/-- A CANCEL (R228). -/
def State.rxCancel (s : State) (p : Fin 4) (src : BitVec 14) (xid : Word) : State :=
  match s.findXfer 2 src xid with
  | some i => s.sendLate p 1 (s.embRsp src 0x81 xid s.emb.xfer[i].w)
  | none => s.sendLate p 1 (s.embRsp src 0x82 xid 4)

/-- An ACCEPT (R229, R215). -/
def State.rxAccept (s : State) (p : Fin 4) (src : BitVec 14) (xid w : Word) : State :=
  let commit (s : State) (p : Fin 4) : State := s.sendLate p 2 (s.embReq src 2 xid 0)
  match s.outXfer src xid with
  | (s, none) => (commit s p).dev 0x40E 5 [src.setWidth 32, xid, w]
  | (s, some i) =>
    let x := s.emb.xfer[i]
    let q : Fin 4 := idx x.port.toNat
    if x.st = 3 then commit s q
    else
      let s := (s.embOp fun e => { e with transit := e.transit.sub x.w, total := e.total.sub x.w }).modXfer i fun x => { x with st := 3, retryAt := s.now + s.tRetry }
      (commit s q).xferMoved i x 3

/-- A REJECT (R229, R215). -/
def State.rxReject (s : State) (src : BitVec 14) (xid : Word) : State :=
  match s.outXfer src xid with
  | (s, none) => s
  | (s, some i) =>
    let x := s.emb.xfer[i]
    if x.st = 3 then s
    else
      let s := (s.embOp fun e => { e with transit := e.transit.sub x.w, free := e.free.add x.w }).modXfer i fun _ => {}
      s.xferMoved i x 0

/-- A DONE (R229). -/
def State.rxDone (s : State) (src : BitVec 14) (xid : Word) : State :=
  match s.findXfer 1 src xid with
  | none => s
  | some i =>
    let x := s.emb.xfer[i]
    if x.st = 3 then (s.modXfer i fun _ => {}).xferMoved i x 0 else s

/-- A received Ember message is handled (R227-R229); a frozen pool consumes it, answers nothing and changes nothing but EMB_ASK
(18 R373). -/
def State.runMsg (s : State) (m : MsgWait) : State :=
  let n := s.emb.ops
  let s := s.evp 5
  let s : State := if s.emb.frozen && m.kind != .ask then s else match m.kind with
    | .offer => s.rxOffer m.p m.src m.xid m.w
    | .commit => s.rxCommit m.p m.src m.xid
    | .cancel => s.rxCancel m.p m.src m.xid
    | .ask => { s with emb := { s.emb with ask := s.emb.ask.set m.p m.xid } }
    | .accept => s.rxAccept m.p m.src m.xid m.w
    | .reject => s.rxReject m.src m.xid
    | .finished => s.rxDone m.src m.xid
  let s := { s with emb := { s.emb with ops := n + 1 } }
  s.embEntry (BitVec.ofNat 8 m.kind.num) (BitVec.ofNat 8 m.p.val) m.src.toNat m.xid m.w

/-- Requests that are answered: OFFER, COMMIT, CANCEL (R227). -/
def MsgWait.answered (m : MsgWait) : Bool := m.kind == .offer || m.kind == .commit || m.kind == .cancel

/-- A place for the request's reply in the port's EMB_RSP queue, counting the replies withheld; a reply to the same source and xid
that still waits stands for it (18 R382, R383). -/
def State.rspRoom (s : State) (m : MsgWait) : Bool :=
  let q := s.link.port[m.p].txq[(1 : Fin 4)]
  let held := s.emb.held.filterMap fun e => match e.2 with | .send p c o => if p = m.p ∧ c = 1 then some o else none | _ => none
  let same (o : Msg) : Bool := mDest o == m.src && mPay0 o == m.xid
  q.any same || held.any same || decide (q.length + held.length < partSize 1)

/-- A request that keeps its receive slot: its reply has no place, or an earlier request of the port waits (18 R383). -/
def State.msgKept (s : State) (m : MsgWait) : Bool :=
  m.answered && (!s.rspRoom m || s.emb.waitMsg.any fun w => w.p == m.p && w.answered)

/-- An Ember message arrives on an UP port (R227, 17 R355): it is handled, or stays in its receive slot, behind those that arrived
earlier and wait for a later tick. One that must wait sets evpend.emb as it arrives (03 R80). -/
def State.embMsg (s : State) (m : MsgWait) : State :=
  if !s.portUp m.p || s.pr.role == .syncing || s.pr.role == .synced then s
  else if s.embAdmit && !s.msgKept m && s.emb.waitMsg.all fun w => w.answered && !s.rspRoom w then s.runMsg m
  else State.evp { s with emb := { s.emb with waitMsg := s.emb.waitMsg ++ [m] } } 5

/-- Waiting messages are admitted in their order; a request without a place for its reply waits on (R214, 17 R355, 18 R383)
(notes/assumptions/26.md). -/
def State.admitMsgs : List MsgWait → State → State
  | [], s => s
  | m :: ms, s =>
    if !s.embAdmit then { s with emb := { s.emb with waitMsg := s.emb.waitMsg ++ m :: ms } }
    else State.admitMsgs ms (if s.msgKept m then { s with emb := { s.emb with waitMsg := s.emb.waitMsg ++ [m] } } else s.runMsg m)

/-- A deadline, a lease or an offer of the pool has expired and its row is still to come (R214 order 2, 18 R385). -/
def State.embDue (s : State) : Bool :=
  !s.embHalted && (((fins 256).any fun h =>
    let r := s.emb.hold[h]
    (r.rstate == .ask && decide (r.deadline ≤ s.now)) || (match r.lease with | some e => decide (e ≤ s.now) | none => false)) ||
    s.emb.xfer.toList.any fun x => x.dir == 1 && x.st == 1 && decide (x.offerEnd ≤ s.now))

/-- A new tick's count; what waited is admitted in it. -/
def State.embStart (s : State) : State := { s with emb := { s.emb with ops := 0, go := true, acted := false } }

/-- What waited for the tick is admitted: messages, then a host command (R214, 17 R355) (notes/assumptions/25.md). -/
def State.embTick (s : State) : State :=
  let ms := s.emb.waitMsg
  let s := { s with emb := { s.emb with waitMsg := [] } }
  let s := s.admitMsgs ms
  match s.emb.waitHost with
  | none => s
  | some c => if s.embAdmit then ({ s with emb := { s.emb with waitHost := none } }).runHost c else s

/-- XFER_RETRANSMIT (R229) (notes/assumptions/26.md). -/
def State.xferRetry (s : State) (i : Fin 32) : State :=
  let x := s.emb.xfer[i]
  if x.dir = 1 ∧ x.retryAt ≤ s.now ∧ ¬ s.embHalted then
    let p : Fin 4 := idx x.port.toNat
    let m := if x.st = 1 then s.embReq x.node 1 x.xid x.w else if x.st = 2 then s.embReq x.node 3 x.xid 0 else s.embReq x.node 2 x.xid 0
    let s := s.modXfer i fun x => { x with retryAt := s.now + s.tRetry }
    if s.emb.held.any fun (_, e) => e == .send p 2 m then s else s.reqPush p m
  else s

/-- The write-off of a transfer (R231). -/
def State.writeOff (s : State) (ini : Initiator) (i : Fin 32) : State :=
  let x := s.emb.xfer[i]
  if x.dir = 1 ∧ (x.st = 1 ∨ x.st = 2) ∧ ¬ s.emb.frozen then
    let s := (s.embOp fun e => { e with transit := e.transit.sub x.w, total := e.total.sub x.w }).modXfer i fun _ => {}
    let s := s.embEntry 6 (BitVec.ofNat 8 i.val) (iniNum ini) x.xid x.w
    ((s.dev 0x401 3 [x.w, 6, 0, s.emb.total.v]).dev 0x40B 5 [x.xid, x.node.setWidth 32, x.w]).xferMoved i x 0
  else s

/-! ### Enforcement writes -/

/-- TWI2 is enabled as a controller, and not off in SHIP (15 R314, 19 R401). -/
def State.enfPort (s : State) : Bool := s.pwr.state != 3 && bit (s.reg 0xA2000) 31 && bit (s.reg 0xA2000) 29

/-- An enforcement write is on TWI2, or one is due and waits to start. -/
def State.enfOnBus (s : State) : Bool := (fins 256).any fun h => s.emb.hold[h].enf.onBus
def State.enfWaits (s : State) : Bool :=
  s.enfPort && (fins 256).any fun h =>
    let e := s.emb.hold[h].enf
    s.wantsWrite h && (match e.retryAt with | some t => decide (t ≤ s.now) | none => e.need)

/-- No write is on TWI2, neither of the pool nor of a program, and this controller drives it (15 R325) (notes/assumptions/27.md). -/
def State.enfFree (s : State) : Bool := !s.embHalted && s.pr.role != .failed && s.enfPort && !s.enfOnBus && !s.twi[(2 : Fin 3)].cxOn

/-- A program transaction that waited on TWI2 starts once no enforcement write is on the bus or due (15 R325). -/
def State.cxKick (s : State) : State :=
  let t := s.twi[(2 : Fin 3)]
  if t.cx.isSome && !t.cxOn && !s.enfOnBus && !s.enfWaits then { s with twi := s.twi.set (2 : Fin 3) { t with cxOn := true, busAt := s.now } } else s

/-- TWI1 and TWI2 release their pins (01 R37, 17 R361): a program transaction ends with status 7, and an enforcement write on the bus
is broken off, owed still (notes/assumptions/41.md). -/
def State.twiRelease (s : State) : State :=
  let off (t : TwiSt) : TwiSt := if t.cx.isSome then { t with cx := none, cxLoss := 0, cxOn := false, status := 7 } else t
  let s : State := { s with twi := upd (upd s.twi 1 off) 2 off }
  if s.enfOnBus then
    { s with twi := upd s.twi 2 (fun t => { t with cxLoss := 0 })
             emb := { s.emb with hold := s.emb.hold.map fun r => { r with enf := { r.enf with onBus := false, need := r.enf.need || r.enf.onBus } } } }
  else s

/-- The bytes of a write of allowance `a` on TWI2 (R222, 15 R329): a write word in LINEAR11, with PEC if pec is set. -/
def State.enfBytes (s : State) (h : Fin 256) (a : Word) : List Byte :=
  let cfg := s.reg 0x60040
  let bs : List Byte := [(bits (s.hCfg h) 16 7).setWidth 8 <<< 1, bits cfg 0 8] ++ leBytes 2 (toLinear 1 0 a).toNat
  if bit cfg 8 then bs ++ [crc8 bs] else bs

/-- EMB_ENFORCE (R222): the first attempt to write the newest allowance starts, not before a retry that is pending falls due
(notes/assumptions/27.md). -/
def State.enforceStart (s : State) (h : Fin 256) : State :=
  let e := s.emb.hold[h].enf
  if e.need && s.enfFree && (match e.retryAt with | some t => decide (t ≤ s.now) | none => true) then
    if s.wantsWrite h then
      let a := fMul (fNat e.want.toNat) (s.reg 0x60044)
      ((s.busUsed 2).modHold h fun r => { r with enf := { r.enf with need := false, rise := false, onBus := true, sent := e.want, acked := false, limit := a, wire := s.enfBytes h a, retryAt := none } }).dev 0x405 4 [nw h.val, a]
    else (s.modHold h fun r => { r with enf := { r.enf with need := false, rise := false } }).cxKick
  else s

/-- ENFORCE_RETRY (R222). -/
def State.enforceRetry (s : State) (h : Fin 256) : State :=
  let e := s.emb.hold[h].enf
  match e.retryAt with
  | some t =>
    if t ≤ s.now ∧ s.enfFree ∧ ¬ e.need then
      if s.wantsWrite h then (s.busUsed 2).modHold h fun r => { r with enf := { r.enf with onBus := true, acked := false, wire := s.enfBytes h r.enf.limit, retryAt := none } }
      else (s.modHold h fun r => { r with enf := { r.enf with retryAt := none } }).cxKick
    else s
  | none => s

/-- A write acknowledged through its STOP in ENFORCE (R222): it completes the pend if it set no more than the grant, in which case the
holder draws no more than its grant (notes/assumptions/27.md). -/
def State.enforced (s : State) (h : Fin 256) : State :=
  let before := s.slowWant
  ((s.complete h 1).modHold h fun r => { r with rstate := .none, enforced := true }).withSlow before

/-- A write acknowledged through its STOP in another state: the limit has been set, and R223 applies from then on, to what the grant has
become meanwhile too. -/
def State.enforcedLate (s : State) (h : Fin 256) : State :=
  let r := s.emb.hold[h]
  let s := s.modHold h fun r => { r with enforced := true }
  if r.enf.need || s.limitHeld h || r.enf.sent == r.grant.v then s else s.limitChanged h (decide (r.enf.sent.toNat < r.grant.v.toNat))

/-- The mirror tells of an acknowledged write (17 R353). -/
def State.enfTold (s : State) (h : Fin 256) : State :=
  if s.pr.role == .active then { s with emb := { s.emb with enfDone := BitVec.ofNat 16 (0x8000 + h.val) } } else s

/-- The end of an enforcement write: it completes the pend, sets the limit, or has failed (R222, R223) (notes/assumptions/27.md). -/
def State.enforceOver (s : State) (h : Fin 256) (ok : Bool) (err : BitVec 4) : State :=
  let r := s.emb.hold[h]
  if !r.enf.onBus then s
  else if ok then
    let s := s.modHold h fun r => { r with enfFail := false, enf := { r.enf with onBus := false, acked := false, fails := 0, retryAt := none } }
    if r.rstate = .enforce then (if s.emb.frozen || decide (r.grant.v.toNat < r.enf.sent.toNat) then s else (s.enforced h).enfTold h)
    else if s.hOpen h then (s.enforcedLate h).enfTold h
    else s
  else
    let n := r.enf.fails + 1
    let s := s.modHold h fun r => { r with enfFail := r.enfFail || decide (n = 8), enf := { r.enf with onBus := false, acked := false, fails := n } }
    let s := if n = 8 then s.dev 0x406 6 [nw h.val, err.setWidth 32] else s
    if s.wantsWrite h && !r.enf.acked && (!r.enf.need || decide (r.enf.sent.toNat < r.enf.want.toNat)) then
      s.modHold h fun r => { r with enf := { r.enf with retryAt := some (s.now + max 1 (fld (s.reg 0x60040) 16 8)) } }
    else s

/-- An enforcement write leaves the bus, and a program transaction that waited for it may start (R222, R325). -/
def State.enforceEnd (s : State) (h : Fin 256) (ok : Bool) (err : BitVec 4) : State :=
  if s.emb.hold[h].enf.onBus then
    let s : State := { s with twi := upd s.twi 2 fun t => { t with cxLoss := 0 } }
    (s.enforceOver h ok err).cxKick
  else s

/-! ### Release of withheld effects (R233) -/

/-- One withheld effect takes place. -/
def State.releaseOne (s : State) : Withheld → State
  | .send p c m => s.embPush p c m
  | .hres => { s with emb := { s.emb with hresBusy := false } }
  | .slow _ => s
  | .limit h w =>
    let v := wmin w s.emb.hold[h].grant.v
    if s.emb.hold[h].enf.want = v then s else s.newLimit h v

/-- Every withheld effect of an operation up to elapsed tick `t` is released. -/
def State.releaseTo (s : State) (t : Nat) : State :=
  let go := s.emb.held.filter fun e => decide (e.1 ≤ t)
  let s := { s with emb := { s.emb with held := s.emb.held.filter fun e => !decide (e.1 ≤ t) } }
  go.foldl (fun (s : State) e => s.releaseOne e.2) s

/-! ### Registers -/

/-- enf_en of an open holder changes at once (R218, R222): cleared in ENFORCE it gives WAIT, set in WAIT it starts enforcement
(notes/assumptions/27.md). -/
def State.enfSwitch (s : State) (h : Fin 256) (was : Bool) : State :=
  let new := bit (s.hCfg h) 23
  match s.emb.hold[h].rstate with
  | .enforce => if was && !new then s.modHold h fun r => { r with rstate := .wait, enf := { r.enf with need := r.enf.need && r.enforced } } else s
  | .wait => if !was && new then s.enterEnforce h else s
  | _ => s

/-- A write of holder word 0 (R218). -/
def State.holderWrite (s : State) (h : Fin 256) (v : Word) : State :=
  let old := s.hCfg h
  let r := s.emb.hold[h]
  let a := holdA h.val 0
  let before := s.slowWant
  let (s, v) :=
    if bit old 31 && !bit v 31 && (r.grant.v != 0 || r.pend.v != 0) then (s.flagErr errLocked a, v ||| bw true 31)
    else if !bit old 31 && bit v 31 && !bit s.embCfg 31 then (s.flagErr errLocked a, v &&& 0x7FFFFFFF)
    else (s, v)
  let s := s.setReg a v
  let s := if bit v 31 then s.enfSwitch h (bit old 23) else s
  let s := if bit old 31 && !bit v 31 then s.modHold h fun r => { r with enforced := false, lease := none, enf := { r.enf with need := false, retryAt := none } } else s
  s.withSlow before

/-- Reads of the pool's status registers. -/
def State.embRead (s : State) (o : Nat) : Word :=
  let e := s.emb
  let pairW (k : Cnt) : Word := if o % 8 = 0 then k.v else k.c
  if o = 0 then nw 32 <<< 24 ||| nw 256
  else if o = 8 then
    bw e.frozen 31 ||| bw (e.debt.v != 0) 30 ||| bw e.uncovered 29 ||| nw ((e.xfer.toList.filter fun x => x.dir != 0).length) <<< 16 ||| at_ e.seq 0
  else if 0x10 ≤ o ∧ o < 0x18 then pairW e.total
  else if 0x18 ≤ o ∧ o < 0x20 then pairW e.free
  else if 0x20 ≤ o ∧ o < 0x28 then pairW e.granted
  else if 0x28 ≤ o ∧ o < 0x30 then pairW e.transit
  else if 0x30 ≤ o ∧ o < 0x38 then pairW e.pending
  else if 0x38 ≤ o ∧ o < 0x40 then pairW e.debt
  else if o = 0x4C then s.slowPins.setWidth 32
  else if o = 0x58 then bw e.hresBusy 31 ||| at_ e.hres 0
  else if 0x60 ≤ o ∧ o < 0x70 then e.ask[(idx ((o - 0x60) / 4) : Fin 4)]
  else if 0x80 ≤ o ∧ o < 0xA0 then e.reqmap[(idx ((o - 0x80) / 4) : Fin 8)]
  else if 0x100 ≤ o ∧ o < 0x300 then
    let x := e.xfer[(idx ((o - 0x100) / 16) : Fin 32)]
    match o % 16 / 4 with
    | 0 => at_ x.dir 30 ||| at_ x.st 27 ||| at_ x.port 14 ||| at_ x.node 0
    | 1 => x.xid
    | 2 => x.w
    | _ => x.opened
  else if 0x1000 ≤ o ∧ o < 0x5000 then
    let r := e.hold[(idx ((o - 0x1000) / 64) : Fin 256)]
    match o % 64 / 4 with
    | 2 => r.grant.v
    | 3 => r.grant.c
    | 4 => r.pend.v
    | 5 => r.pend.c
    | 7 => r.req
    | 8 =>
      let t := match r.rstate, r.lease with
        | .ask, _ => r.deadline - s.now
        | .none, some l => l - s.now
        | _, _ => 0
      let st : Nat := match r.rstate with | .none => 0 | .ask => 1 | .enforce => 2 | .wait => 3
      nw st <<< 29 ||| bw r.enforced 28 ||| bw r.leaseExp 27 ||| bw r.enfFail 26 ||| nw (min t 0xFFFFFF)
    | _ => 0
  else 0

/-- EMB_HCMD_W as a command finds it: as its last write leaves it, one that waits for a later tick included (17 R355). -/
def State.hcmdW (s : State) : Word :=
  s.emb.waitReg.foldl (fun w e => if e.2.1 = 0x60050 then merge w e.2.2.1 e.2.2.2 else w) (s.reg 0x60050)

/-- Writes of EMB_HCMD, EMB_XCMD and EMB_REQMAP (`v` holds only the bytes written). -/
def State.embWrite (s : State) (ini : Initiator) (o : Nat) (v : Word) : State :=
  if o = 0x54 then
    let h : Fin 256 := idx (fld v 0 8)
    let w := s.hcmdW
    match fld v 28 4 with
    | 1 => s.hostCmd ini .request h w
    | 2 => s.hostCmd ini .giveBack h w
    | 3 => s.hostCmd ini .renew h w
    | 4 => s.hostCmd ini .revokeAck h w
    | _ => s
  else if o = 0x5C then (if bit v 31 then s.writeOff ini (idx (fld v 0 5)) else s)
  else if 0x80 ≤ o ∧ o < 0xA0 then
    { s with emb := { s.emb with reqmap := upd s.emb.reqmap (idx ((o - 0x80) / 4)) (· &&& ~~~ v) } }
  else s

end Sys2Proof.Machine
end

