-- ==== Sys2Proof/Machine/Phs.lean ====
section
/-! DEFINITION. Phases and rails (07_phases.md): conversion and limits, the switching period, the rail state machine,
shedding, bursts, protections and phase faults. -/

namespace Sys2Proof.Machine

/-- Addresses of phase and rail registers. -/
def phA (n o : Nat) : Nat := 0x20000 + 0x100 * n + o
def raA (g o : Nat) : Nat := 0x23000 + 0x100 * g + o

def State.modPh (s : State) (n : Fin 48) (f : PhaseSt → PhaseSt) : State := { s with phs := { s.phs with ph := upd s.phs.ph n f } }
def State.modRail (s : State) (g : Fin 16) (f : RailSt → RailSt) : State := { s with phs := { s.phs with rail := upd s.phs.rail g f } }
def State.modCtx (s : State) (x : Fin 128) (f : CtxSt → CtxSt) : State := { s with fbx := { s.fbx with ctx := upd s.fbx.ctx x f } }

/-- A context without fault, as it reads from now on too (R137). -/
def CtxSt.unfault (c : CtxSt) : CtxSt := { c with fault := false, cause := 0, act := 0, shown := c.shown &&& 0x03FFFFFF }

def State.phCfg (s : State) (n : Fin 48) : Word := s.reg (phA n 0)
/-- The rail that PHS_CFG assigns a present, enabled phase to. -/
def State.phRail (s : State) (n : Fin 48) : Option (Fin 16) :=
  if n.val < s.nPhases && bit (s.phCfg n) 31 then some (idx (fld (s.phCfg n) 16 4)) else none
def State.isMember (s : State) (g : Fin 16) (n : Fin 48) : Bool := s.phRail n == some g
/-- A member phase without fault (R171). -/
def State.isHealthy (s : State) (g : Fin 16) (n : Fin 48) : Bool := s.isMember g n && !s.phs.ph[n].fault
/-- The states in which phases of a rail switch (R176). -/
def RailState.active (r : RailState) : Bool := r == .softStart || r == .run || r == .burst || r == .softStop
/-- A healthy member of a rail that is on, neither shed nor waiting to join (R171; n_run of a rail that is off is 0,
notes/assumptions/30.md). -/
def State.isRunning (s : State) (g : Fin 16) (n : Fin 48) : Bool :=
  let p := s.phs.ph[n]
  s.phs.rail[g].state.active && s.isHealthy g n && p.rail == some g && !p.shed && !p.rejoin
def State.running (s : State) (g : Fin 16) : List (Fin 48) := (fins 48).filter (s.isRunning g)
def State.nRun (s : State) (g : Fin 16) : Nat := (s.running g).length
def State.nHealthy (s : State) (g : Fin 16) : Nat := ((fins 48).filter (s.isHealthy g)).length

/-- Saturation to the 12-bit code range (R165). -/
def satCode (i : Int) : BitVec 12 := BitVec.ofInt 12 (max 0 (min 4095 i))

/-- An output in amperes as a code (R165). -/
def toCode (i scl : Word) : BitVec 12 :=
  let p := fMul i scl
  match fVal p with
  | .nan => 2048
  | .inf neg => if neg then 0 else 4095
  | .num _ _ _ => satCode (2048 + fNearest p)

/-- The two limit codes of a PHASE_LIM output (R166): upper, lower. -/
def limCodes (i scl : Word) : BitVec 12 × BitVec 12 :=
  let p := fMul (fAbsW i) scl
  match fVal p with
  | .nan => (2048, 2048)
  | .inf neg => if neg then (0, 4095) else (4095, 0)
  | .num _ _ _ => (satCode (2048 + fNearest p), satCode (2048 - fNearest p))

/-- The code of an ampere value inverted (R165). -/
def fromCode (c : BitVec 12) (scl : Word) : Word := fDiv (fInt ((c.toNat : Int) - 2048)) scl

/-- Cycle-by-cycle limit codes of a phase (R166): upper, lower. -/
def State.cbcLimits (s : State) (n : Fin 48) : BitVec 12 × BitVec 12 :=
  let l := s.reg (phA n 0x18)
  let hi : BitVec 12 := bits l 16 12
  let lo : BitVec 12 := bits l 0 12
  match s.phs.ph[n].limA with
  | none => (hi, lo)
  | some i =>
    let (a, b) := limCodes i s.phs.ph[n].scl
    (if a.toNat < hi.toNat then a else hi, if lo.toNat < b.toNat then b else lo)

/-- A code held between a lower and an upper bound; the upper bound wins. -/
def holdCode (c lo hi : BitVec 12) : BitVec 12 :=
  let c1 := if c.toNat < lo.toNat then lo else c
  if hi.toNat < c1.toNat then hi else c1

/-- Address of DFT_BATLIM[m]. -/
def batLimA (m : Nat) : Nat := 0xD0088 + 8 * (m - 1)

/-- A phase of the battery rail, outside the hold interval after a handover, in which only PHS_LIM bounds a code (17 R362). -/
def State.isBattery (s : State) (n : Fin 48) : Bool :=
  let b := s.reg 0xD0084
  bit b 31 && s.pr.resumeAt.isNone && s.phRail n == some (idx (fld b 16 4))

/-- DFT_BATLIM of the mode in force, or of mode 2 after a mismatch (08 R191, R193): upper, lower; `none` if that pair is unsound too. -/
def State.batBounds (s : State) : Option (BitVec 12 × BitVec 12) :=
  (s.pair (batLimA (if s.dft.batBad then 2 else s.dft.eff.toNat))).map fun w => (bits w 16 12, bits w 0 12)

/-- What holds the code of a battery-rail phase (08 R191-R193): no bound, the bounds with which its current period started, or those
of the mode in force; after a mismatch the fallback acts at once, and without a sound pair the code is 2,048. -/
inductive ModeBound where
  | free
  | within (hi lo : BitVec 12)
  | centre
  deriving DecidableEq, Repr

def State.modeBounds (s : State) (n : Fin 48) : ModeBound :=
  let p := s.phs.ph[n]
  if !s.isBattery n then .free
  else match s.batBounds with
    | none => .centre
    | some (hi, lo) =>
      match p.mb with
      | some (h, l) => if p.started && !s.dft.batBad then .within h l else .within hi lo
      | none => .within hi lo

/-- The upper bound 2,048 of the battery rail while enough strings are cut off (11 R253). -/
def State.cutBound (s : State) (hi : BitVec 12) : BitVec 12 :=
  let cutN := fld (s.reg 0x50004) 16 5
  let cut := (s.bat.str.toList.filter (·.cutoff)).length
  if cutN ≠ 0 ∧ cutN ≤ cut ∧ 2048 < hi.toNat then 2048 else hi

/-- The phase uses the burst peak: in BURST, and until its next period start after it (R174, R175). -/
def State.usesIpk (s : State) (n : Fin 48) : Option (Fin 16) :=
  match s.phRail n with
  | some g => if s.phs.rail[g].state = .burst ∨ s.phs.ph[n].ipk then some g else none
  | none => none

/-- The reference code that the phase's period uses before bounds: the raw code, or the burst peak (R174). -/
def State.refCode (s : State) (n : Fin 48) : BitVec 12 :=
  match s.usesIpk n with
  | some g => toCode (s.reg (raA g 0x28)) s.phs.ph[n].scl
  | none => s.phs.ph[n].raw

/-- The effective reference code (R166, 08 R191-R193). -/
def State.effCode (s : State) (n : Fin 48) : BitVec 12 :=
  let (hi, lo) := s.cbcLimits n
  match s.modeBounds n with
  | .free => holdCode (s.refCode n) lo hi
  | .centre => 2048
  | .within mh ml =>
    let mh := s.cutBound mh
    holdCode (s.refCode n) (if lo.toNat < ml.toNat then ml else lo) (if mh.toNat < hi.toNat then mh else hi)

/-- Every DAC holds the effective code. -/
def State.loadEff (s : State) : State :=
  (fins 48).foldl (fun (s : State) (n : Fin 48) => if n.val < s.nPhases then s.modPh n fun p => { p with eff := s.effCode n } else s) s

/-- Why a phase is not switching (PHS_STAT.cause). -/
def State.phCause (s : State) (n : Fin 48) : BitVec 4 :=
  let p := s.phs.ph[n]
  if p.sw then 0
  else if p.fault then p.cause
  else match s.phRail n with
    | none => 8
    | some g =>
      let r := s.phs.rail[g]
      if p.held ≠ 0 ∧ r.inhibit then p.held
      else if r.state = .burst ∧ p.rail = some g ∧ (p.shed = false ∨ bit (s.phCfg n) 29 = false) then 9
      else if p.shed then 2
      else 1

/-- A phase stops switching. -/
def PhaseSt.stop (p : PhaseSt) : PhaseSt :=
  { p with sw := false, startDue := false, stopDue := none, onTime := false, pulse := false, ipk := false, mb := none, pulses := 0,
           started := false, bounded := false }

/-- Every phase that belongs to the rail stops. -/
def State.stopMembers (s : State) (g : Fin 16) : State :=
  (fins 48).foldl (fun (s : State) (n : Fin 48) => if s.phs.ph[n].rail == some g then s.modPh n PhaseSt.stop else s) s

/-- Burn of a phase fault (R187 step 5): the state, and 0 burned, 1 burned before, 2 pair mismatch. -/
def State.burnPhase (s : State) (n : Fin 48) : State × Nat :=
  if s.phs.ph[n].burned then (s, 1)
  else match s.pair (phA n 0x30) with
    | some w => ((s.hwBurn n w).modPh n fun p => { p with burned := true }, 0)
    | none => (s.flagErr errPair (phA n 0x30), 2)

/-- A phase fault stop (R187) with its event: code, payload words between n and the burn result (notes/assumptions/12.md). -/
def State.faultPhase (s : State) (n : Fin 48) (cause : BitVec 4) (code : Nat) (mid : List Word) : State :=
  let s := s.modPh n fun p => { p.stop with fault := true, cause := cause, rejoin := false }
  let (s, res) := (s.evp 8).burnPhase n
  s.dev code 6 (nw n.val :: mid ++ [Config.codeOf code 9 res])

/-- PHASE_AOC (R183): the sensed code leaves the absolute window. -/
def State.aocTrip (s : State) (n : Fin 48) (code : BitVec 12) : State :=
  (s.modPh n fun p => { p with aoc := satAdd p.aoc 1 }).faultPhase n 3 0x200 [code.setWidth 32]

/-- The check of the PHS_AOC pair (R183): a mismatch stops the phase with cause 3; no over-current has tripped. -/
def State.checkAoc (s : State) (n : Fin 48) : State :=
  match s.pair (phA n 0x20) with
  | some _ => s
  | none =>
    let s := s.flagErr errPair (phA n 0x20)
    if s.phs.ph[n].fault || s.inStandby then s else s.faultPhase n 3 0x200 [s.phs.ph[n].eff.setWidth 32]

/-- A phase fault clears (R188). DESIGN CHOICE: cleared while its rail is in any state but RUN and BURST, the phase waits for the rail's next
SOFT_START (notes/assumptions/30.md). -/
def State.clearFault (s : State) (n : Fin 48) (who : Word) : State :=
  if s.phs.ph[n].fault then
    let back := match s.phRail n with
      | some g => (s.phs.rail[g].state = .run || s.phs.rail[g].state = .burst) && s.phs.ph[n].rail == some g
      | none => false
    (s.modPh n fun p => { p with fault := false, cause := 1, openCnt := 0, rejoin := back, rail := if back then p.rail else none }).dev 0x203 2 [nw n.val, who]
  else s

/-- Registers of a rail. -/
def State.tss (s : State) (g : Fin 16) : Nat := max 1 (fld (s.reg (raA g 0x08)) 0 20)
def State.tsst (s : State) (g : Fin 16) : Nat := fld (s.reg (raA g 0x0C)) 0 20
def State.offMin (s : State) (g : Fin 16) : Nat := max 8 (fld (s.reg (raA g 0x10)) 24 8)
def State.hicTicks (s : State) (g : Fin 16) : Nat := 1000 * (fld (s.reg (raA g 0x10)) 0 10 + 1)
/-- The voltage-loop context x_v of a rail. -/
def State.xv (s : State) (g : Fin 16) : Fin 128 := idx (fld (s.reg (raA g 0)) 0 7)
/-- The rail's output y: the sample of sense channel 48 + k. -/
def State.railY (s : State) (g : Fin 16) : Word := s.sns.sample[(idx (48 + fld (s.reg (raA g 0)) 8 4) : Fin 96)]
/-- The stored REF word address of a context by its active class. -/
def State.refAddr (s : State) (x : Nat) : Nat := if bit (s.reg (descAddr x 0)) 30 then descAddr x 14 else descAddr x 6
/-- V_tgt: the active REF of context x_v (R171). -/
def State.vtgt (s : State) (g : Fin 16) : Word := s.reg (s.refAddr (s.xv g).val)
/-- The period P in steps, limited (PHS_GRP_PER). -/
def State.railPer (s : State) (g : Fin 16) : Nat := max 5760 (min 192000 (fld (s.reg (raA g 0x04)) 0 18))

/-- The offset a phase takes at the next carrier wrap (R172). -/
def State.targetOfs (s : State) (g : Fin 16) (n : Fin 48) : Nat :=
  let p := s.railPer g
  if bit (s.reg (raA g 0)) 29 && !bit (s.phCfg n) 28 then
    let run := s.running g
    (run.takeWhile (· != n)).length * p / max 1 run.length
  else fld (s.reg (phA n 0x0C)) 0 18 % p

/-- The offsets of a rail's running phases come into force (R168, R172). -/
def State.loadOfs (s : State) (g : Fin 16) : State :=
  (s.running g).foldl (fun (t : State) (n : Fin 48) => t.modPh n fun p => { p with ofs := s.targetOfs g n }) s

/-! ### Times of a period (R162) -/

/-- Times of the current period, in steps: dt_rise, dt_fall, minimum off-time, and the part of the on-time in which the comparator
is ignored (R162). -/
def PhaseSt.rise (p : PhaseSt) : Nat := fld p.dt 0 12
def PhaseSt.fall (p : PhaseSt) : Nat := fld p.dt 16 12
def PhaseSt.offMin (p : PhaseSt) : Nat := 32 * fld p.tmg 0 8
def PhaseSt.deaf (p : PhaseSt) : Nat := 32 * max (fld p.tmg 8 8) (fld p.tmg 16 8)
/-- The longest on-time of a period of `per` steps (R162 step 4). -/
def PhaseSt.longest (p : PhaseSt) (per : Nat) : Nat := per - p.rise - p.fall - p.offMin
/-- The shortest period with a pulse: it keeps the minimum on-time and off-time, and what had passed of the on-time when the carrier
wrapped (R162, R168) (notes/assumptions/62.md). -/
def PhaseSt.least (p : PhaseSt) (per : Nat) : Nat :=
  p.rise + min (max (32 * fld p.tmg 8 8) p.onLeast) (p.longest per) + p.fall + p.offMin

/-! ### Carriers (R161) -/

/-- Steps of 1/32 cycle since reset, up to the start of cycle `c` of this tick; a tick is 19,200 steps. -/
def State.stepAt (s : State) (c : Nat) : Nat := 19200 * s.now + 32 * c

/-- The steps of this tick that lie between the last fixed event of the tick and the next one: before the strobe, before the commit
of cycle 599, and from it on. -/
def State.stepSpan (s : State) : Nat × Nat :=
  if s.time.strobeDue then (s.stepAt 0, s.stepAt 240)
  else if s.time.commitDue then (s.stepAt 240, s.stepAt 600)
  else (s.stepAt 599, s.stepAt 600)

/-- The first step at or after `lo` that is `base` or any number of periods after it. -/
def nextStep (base per lo : Nat) : Nat := if lo ≤ base then base else base + (lo - base + per - 1) / per * per

/-- The carrier of a rail at step `t`: 0 to P − 1 (R161). -/
def State.carrier (s : State) (g : Fin 16) (t : Nat) : Nat := (t - s.phs.rail[g].zero) % s.railPer g

/-- The step at which the next period of a phase begins: its rail's carrier equals its offset (R161), but no sooner than the minimum
times of a period under way allow (R168) (notes/assumptions/62.md). -/
def State.nextPeriod (s : State) (n : Fin 48) : Nat :=
  let p := s.phs.ph[n]
  let t := nextStep (s.phs.rail[p.car].zero + p.ofs) (s.railPer p.car) (p.began + 1)
  if p.sw && p.started && p.pulse then max t (p.began + p.least (s.railPer p.car)) else t

/-- The length of a phase's period that ends at step `t`, as far as it bounds the on-time: P, or less where the offset has changed
(R162, R168). -/
def State.periodLen (s : State) (n : Fin 48) (t : Nat) : Nat := min (s.railPer s.phs.ph[n].car) (t - s.phs.ph[n].began)

/-- The step in this part of the tick at which a phase's period begins. -/
def State.periodAt (s : State) (n : Fin 48) : Option Nat :=
  let p := s.phs.ph[n]
  let (lo, hi) := s.stepSpan
  let x := s.nextPeriod n
  let t := if lo ≤ x then x else nextStep (s.phs.rail[p.car].zero + p.ofs) (s.railPer p.car) lo
  if t < hi then some t else none

/-- The step in this part of the tick at which a rail's carrier wraps. -/
def State.wrapAt (s : State) (g : Fin 16) : Option Nat :=
  let (lo, hi) := s.stepSpan
  let z := s.phs.rail[g].zero
  let t := nextStep (z + s.railPer g) (s.railPer g) lo
  if t < hi then some t else none

/-- Every carrier's last zero at or before the start of cycle 599, so that a period P that changes at the commit does not move it. -/
def State.keepCarriers (s : State) : State :=
  (fins 16).foldl (fun (s : State) (g : Fin 16) =>
    s.modRail g fun r => { r with zero := if r.zero ≤ s.stepAt 599 then s.stepAt 599 - s.carrier g (s.stepAt 599) else r.zero }) s

/-- The carriers of the rails that `due` names are set to 0 at the start of cycle 240 (R161). -/
def State.zeroCarriers (s : State) (due : Fin 16 → Bool) : State :=
  (fins 16).foldl (fun (s : State) (g : Fin 16) => if due g then s.modRail g fun r => { r with zero := s.stepAt 240 } else s) s

/-- The ramp value supplied in the tick (R177, R180); `none` if no ramp is supplied. -/
def State.rampVal (s : State) (g : Fin 16) : Option Word :=
  let r := s.phs.rail[g]
  let j := s.now - r.entry
  match r.state with
  | .softStart =>
    if 1 ≤ j ∧ j ≤ s.tss g then
      some (fMac r.pre (fSub (s.vtgt g) r.pre) (fDiv (fNat j) (fNat (s.tss g))))
    else none
  | .softStop =>
    if 1 ≤ j ∧ j ≤ s.tsst g then some (fMac r.r0 (fNegW r.r0) (fDiv (fNat j) (fNat (s.tsst g)))) else none
  | _ => none

/-- At cycle 0 the ramp of the tick is formed. -/
def State.ramps (s : State) : State :=
  (fins 16).foldl (fun (s : State) (g : Fin 16) => s.modRail g fun r => { r with ramp := (s.rampVal g).getD 0 }) s

/-- Entry to OFF (R176): the members stop, the minimum off time begins, event 0x212. -/
def State.railOff (s : State) (g : Fin 16) : State :=
  let s := (s.stopMembers g).modRail g fun r => { r with state := .off, entry := s.now, offEnd := s.now + s.offMin g, inreg := false, bandRun := 0, regRun := 0 }
  (s.evp 8).dev 0x212 2 [nw g.val, s.phs.rail[g].cause.setWidth 32]

/-- Entry to SOFT_START (R177) (notes/assumptions/9.md, 29.md, 30.md). -/
def State.railStart (s : State) (g : Fin 16) : State :=
  let y := s.railY g
  let pre := fpMax (Config.zeroChoice s.freeCtr) y 0
  let s := s.drawn
  let s := s.modRail g fun r => { r with state := .softStart, entry := s.now, startAt := s.now, pre := pre, enPending := false, inreg := false,
                                         bandRun := 0, regRun := 0, shedRun := 0, burstRun := 0, lastBurst := none, regDue := false,
                                         retryDue := false, shedDue := false, burstDue := false }
  let s := (fins 48).foldl (fun (s : State) (n : Fin 48) =>
    if s.isMember g n then
      let s := s.clearFault n (Config.codeOf 0x203 1 4)
      let s := s.modPh n fun p => { p with rail := some g, car := g, shed := false, rejoin := false, startDue := true, stopDue := none, openCnt := 0, started := false, bounded := false }
      s.checkAoc n
    else if s.phs.ph[n].rail == some g then s.modPh n fun p => { p with rail := none } else s) s
  let s := s.loadOfs g
  let s := s.modCtx (s.xv g) fun c => { c.unfault with prime := .enabled, feRun := false, feTicks := 0, rearm := [] }
  s.dev 0x210 2 [nw g.val, pre, s.phs.rail[g].retries.setWidth 32]

/-- A rail leaves a running state for SOFT_STOP from value `r0` (R176, R180). -/
def State.railSoftStop (s : State) (g : Fin 16) (r0 : Word) (cause : BitVec 4) : State :=
  let wake := s.phs.rail[g].state = .burst
  let s := s.modRail g fun r => { r with cause := cause, retries := 0, inreg := false, bandRun := 0, regRun := 0, regDue := false,
                                         retryDue := false, shedDue := false, burstDue := false }
  if s.tsst g = 0 then s.railOff g
  else
    let s := if wake then (s.running g).foldl (fun (s : State) (n : Fin 48) => s.modPh n fun p => { p with startDue := !p.sw, stopDue := none, pulses := 0 }) s else s
    (s.evp 8).modRail g fun r => { r with state := .softStop, entry := s.now, r0 := r0 }

/-- The conditions of a fault stop present at the step, with the OV pair's check (R176 part 2, 18 R376). -/
def State.railFaults (s : State) (g : Fin 16) : State × List Nat :=
  let r := s.phs.rail[g]
  let y := s.railY g
  let c5 := s.nHealthy g < max 1 (fld (s.reg (raA g 0)) 22 6)
  let (s, c4) := match s.pair (raA g 0x30) with
    | some ov => (s, fpGt y ov)
    | none => (s.flagErr errPair (raA g 0x30), true)
  let early := r.state = .softStart ∧ (s.tss g + 3) / 4 ≤ s.now - r.entry ∧ fpLt y (fMul 0x3DCCCCCD (s.vtgt g))
  (s, (if c5 then [5] else []) ++ (if c4 then [4] else []) ++ (if early then [2] else []) ++ (if r.stopAct then [3] else []))

/-- PHS_GRP_STAT.state. -/
def RailState.code : RailState → Nat
  | .off => 0 | .softStart => 1 | .run => 2 | .burst => 3 | .softStop => 4 | .hiccup => 5 | .latched => 6

/-- The fault stop of a rail (R176 part 2). -/
def State.railFaultStop (s : State) (g : Fin 16) (causes : List Nat) : State :=
  let r := s.phs.rail[g]
  let c := causes.headD 0
  let s := ((s.stopMembers g).evp 8).modRail g fun r => { r with cause := BitVec.ofNat 4 c, inreg := false, bandRun := 0, regRun := 0, regDue := false,
                                                                 retryDue := false, shedDue := false, burstDue := false }
  let hic := s.reg (raA g 0x10)
  let ev (s : State) : State := s.dev 0x213 5 [nw g.val, nw c, Config.codeOf 0x213 2 ((causes.map (2 ^ ·)).foldl (· + ·) 0), nw s.phs.rail[g].state.code]
  if r.state = .softStop ∧ ¬ r.enPending then ev (s.railOff g)
  else if r.retries.toNat < fld hic 16 4 ∨ bit hic 20 then
    ev (s.modRail g fun r => { r with state := .hiccup, entry := s.now, retries := satAdd r.retries 1 })
  else
    (ev (s.modRail g fun r => { r with state := .latched, entry := s.now })).dev 0x214 6 [nw g.val, nw c, r.retries.setWidth 32]

/-- Mean reference of the running phases (R173). -/
def State.railMean (s : State) (g : Fin 16) : Word :=
  match s.running g with
  | [] => 0
  | n :: ns => fDiv (ns.foldl (fun a m => fAdd a s.phs.ph[m].refA) s.phs.ph[n].refA) (fNat (ns.length + 1))

/-- A phase is added or rejoins (R173, R188): it starts at its next period start (notes/assumptions/30.md). -/
def State.addPhase (s : State) (g : Fin 16) (n : Fin 48) (im : Word) : State :=
  let s := s.modPh n fun p => { p with shed := false, rejoin := false, stopDue := none, startDue := !p.sw && s.phs.rail[g].state == .run }
  s.dev 0x205 0 [nw n.val, im, nw (s.nRun g)]

/-- Regulation at a step in RUN or BURST (R179). -/
def State.railReg (s : State) (g : Fin 16) : State :=
  let inBand := fpLe (fAbsW (fSub (s.vtgt g) (s.railY g))) (s.reg (raA g 0x38))
  s.modRail g fun r =>
    if inBand then
      let b := r.bandRun + 1
      let k := if r.inreg then r.regRun + 1 else 0
      { r with bandRun := b, regRun := k, regDue := r.regDue || (!r.inreg && decide (16 ≤ b)), retryDue := r.retryDue || decide (k = 1024) }
    else { r with bandRun := 0, regRun := 0, inreg := false, regDue := false, retryDue := false }

/-- A step in RUN: regulation, rejoin or addition, shed and burst qualification (R173, R174, R179, R188) (notes/assumptions/30.md). -/
def State.railRun (s : State) (g : Fin 16) : State :=
  let s := s.railReg g
  let cfg := s.reg (raA g 0)
  let im := s.railMean g
  let s := s.modRail g fun r => { r with im := im }
  let rejoin := (fins 48).find? fun n => s.isHealthy g n && s.phs.ph[n].rejoin
  let shedN := (fins 48).find? fun n => s.isHealthy g n && s.phs.ph[n].shed && !s.phs.ph[n].rejoin
  let add := fpGt im (s.reg (raA g 0x14))
  let s :=
    match rejoin with
    | some n => s.addPhase g n im
    | none =>
      if bit cfg 30 && add then (match shedN with | some n => s.addPhase g n im | none => s) else s
  let took := rejoin.isSome || (bit cfg 30 && add && shedN.isSome)
  let q := s.reg (raA g 0x1C)
  let low := bit cfg 30 && fpLt im (s.reg (raA g 0x18))
  let s := s.modRail g fun r => { r with shedRun := if low then r.shedRun + 1 else 0 }
  let s := s.modRail g fun r => { r with shedDue := !took && low && decide (fld q 0 16 ≤ r.shedRun) && decide (max 1 (fld cfg 16 6) < s.nRun g) }
  let ent := bit cfg 31 && s.phs.rail[g].inreg && fpLe im (s.reg (raA g 0x24))
  s.modRail g fun r => { r with burstRun := if ent then r.burstRun + 1 else 0, burstDue := ent && decide (fld q 16 16 ≤ r.burstRun + 1) }

/-- A step in BURST (R174, R175, R179) (notes/assumptions/30.md). -/
def State.railBurst (s : State) (g : Fin 16) : State :=
  let s := s.railReg g
  let bband := s.reg (raA g 0x2C)
  let y := s.railY g
  let v := s.vtgt g
  let low2 := fpLt y (fSub v (fMul 0x40000000 bband))
  let start := fpLt y (fSub v bband)
  let bcfg := s.reg (raA g 0x20)
  let fast := start && (match s.phs.rail[g].lastBurst with | some t => decide (s.now - t < fld bcfg 16 16) | none => false)
  let rejoin := (fins 48).find? fun n => s.isHealthy g n && s.phs.ph[n].rejoin
  let s := match rejoin with | some n => s.addPhase g n s.phs.rail[g].im | none => s
  if low2 || fast then
    let s := s.modRail g fun r => { r with state := .run, entry := s.now, burstRun := 0, lastBurst := none }
    let s := (s.running g).foldl (fun (s : State) (n : Fin 48) => s.modPh n fun p => { p with startDue := !p.sw, stopDue := none, pulses := 0 }) s
    s.dev 0x217 0 [nw g.val, Config.codeOf 0x217 1 (if low2 then 0 else 1)]
  else if start then
    let s := (s.running g).foldl (fun (s : State) (n : Fin 48) =>
      if bit (s.phCfg n) 29 then s.modPh n fun p => { p with startDue := !p.sw, stopDue := none, pulses := max 1 (fld bcfg 0 8) } else s) s
    s.modRail g fun r => { r with lastBurst := some s.now }
  else s

/-- en_pending set, with event 0x215 if it was 0. -/
def State.pendEn (s : State) (g : Fin 16) : State :=
  let r := s.phs.rail[g]
  if r.enPending then s
  else (s.modRail g fun r => { r with enPending := true }).dev 0x215 1 [nw g.val, nw r.state.code]

/-- One step of a rail at the strobe (R176). The completions that have rows of their own (SOFT_START_DONE, SOFT_STOP_DONE,
HICCUP_DONE, OFF_MIN_EXPIRE) are left to them (notes/assumptions/30.md). -/
def State.railStep (s : State) (g : Fin 16) : State :=
  let r := s.phs.rail[g]
  let en := r.en && !r.inhibit
  let active := r.state = .softStart ∨ r.state = .run ∨ r.state = .burst ∨ r.state = .softStop
  let (s, causes) := if active then s.railFaults g else (s, [])
  if causes ≠ [] then s.railFaultStop g causes
  else match r.state with
    | .off =>
      if en then (if r.offEnd ≤ s.now then (if r.enPending then s else s.railStart g) else s.pendEn g)
      else s.modRail g fun r => { r with enPending := false, retries := 0 }
    | .softStart => if en then s else s.railSoftStop g r.ramp 1
    | .run => if en then s.railRun g else s.railSoftStop g (s.vtgt g) 1
    | .burst => if en then s.railBurst g else s.railSoftStop g (s.vtgt g) 1
    | .softStop =>
      if s.tsst g ≤ s.now - r.entry then s
      else if en then s.pendEn g else s.modRail g fun r => { r with enPending := false }
    | .hiccup => if en then s else (s.modRail g fun r => { r with enPending := false, retries := 0 }).railOff g
    | .latched => if en then s else (s.modRail g fun r => { r with retries := 0 }).railOff g

/-- SOFT_START_DONE: t_ss ticks since entry (R176). -/
def State.softStartDone (s : State) (g : Fin 16) : State :=
  let r := s.phs.rail[g]
  if r.state = .softStart ∧ s.tss g ≤ s.now - r.entry then
    if r.en && !r.inhibit then s.modRail g fun r => { r with state := .run, entry := s.now, bandRun := 0, regRun := 0, shedRun := 0, burstRun := 0 }
    else s.railSoftStop g r.ramp 1
  else s

/-- SOFT_STOP_DONE: t_sst ticks since entry (R176, R180). -/
def State.softStopDone (s : State) (g : Fin 16) : State :=
  let r := s.phs.rail[g]
  if r.state = .softStop ∧ s.tsst g ≤ s.now - r.entry then
    let en := r.en && !r.inhibit
    let s := if en && !r.enPending then s.pendEn g else s.modRail g fun r => { r with enPending := en }
    s.railOff g
  else s

/-- HICCUP_DONE: the hiccup time has elapsed (R176). -/
def State.hiccupDone (s : State) (g : Fin 16) : State :=
  let r := s.phs.rail[g]
  if r.state = .hiccup ∧ s.hicTicks g ≤ s.now - r.entry ∧ r.en ∧ ¬ r.inhibit then s.railStart g else s

/-- OFF_MIN_EXPIRE: the minimum off time of a rail with en_pending has passed (R176) (notes/assumptions/1.md). -/
def State.offMinExpire (s : State) (g : Fin 16) : State :=
  let r := s.phs.rail[g]
  if r.state = .off ∧ r.offEnd ≤ s.now ∧ r.enPending ∧ r.en ∧ ¬ r.inhibit then s.railStart g else s

/-- PHASE_SHED: the highest-numbered running phase is shed (R173) (notes/assumptions/30.md). -/
def State.shedPhase (s : State) (g : Fin 16) : State :=
  let r := s.phs.rail[g]
  if r.state = .run ∧ r.shedDue then
    let s := s.modRail g fun r => { r with shedDue := false, shedRun := 0 }
    match (s.running g).getLast? with
    | none => s
    | some n =>
      let s := s.modPh n fun p => { p with shed := true, startDue := false, stopDue := if p.sw then some 2 else none }
      (s.evp 8).dev 0x204 0 [nw n.val, r.im, nw (s.nRun g)]
  else s

/-- BURST_ENTER (R174). -/
def State.burstEnter (s : State) (g : Fin 16) : State :=
  let r := s.phs.rail[g]
  if r.state = .run ∧ r.burstDue then
    let s := s.stopMembers g
    let s := s.modRail g fun r => { r with state := .burst, entry := s.now, burstDue := false, burstRun := 0, lastBurst := none, shedRun := 0, shedDue := false }
    (s.evp 8).dev 0x216 0 [nw g.val, r.im]
  else s

/-- RAIL_INREG: inreg is set at the 16th consecutive step in band (R179). -/
def State.railInreg (s : State) (g : Fin 16) : State :=
  let r := s.phs.rail[g]
  if r.regDue ∧ (r.state = .run ∨ r.state = .burst) then
    (s.modRail g fun r => { r with inreg := true, regDue := false, regRun := 0 }).dev 0x211 1 [nw g.val, nw (s.now - r.startAt)]
  else s

/-- RETRIES_CLEAR: the 1,024th consecutive step with inreg set (R179). -/
def State.retriesClear (s : State) (g : Fin 16) : State :=
  if s.phs.rail[g].retryDue then s.modRail g fun r => { r with retries := 0, retryDue := false } else s

/-- Every phase and rail stops by hardware, with inhibit (R181): hard stop (6) or holdover expiry (7) (notes/assumptions/13.md). -/
def State.stopAll (s : State) (cause : BitVec 4) : State :=
  let s := (fins 48).foldl (fun (s : State) (n : Fin 48) => s.modPh n fun p => { p.stop with held := cause }) s
  (fins 16).foldl (fun (s : State) (g : Fin 16) =>
    let was := s.phs.rail[g].state
    let s := s.modRail g fun r => { r with cause := cause, inhibit := true, enPending := false }
    if was = .off then s else s.railOff g) (s.evp 8)

/-- The soft stop of the safe state (R181): every running rail enters SOFT_STOP, and inhibit is set on every rail. -/
def State.softStopAll (s : State) : State :=
  (fins 16).foldl (fun (s : State) (g : Fin 16) =>
    let r := s.phs.rail[g]
    let s := match r.state with
      | .softStart => s.railSoftStop g r.ramp 6
      | .run => s.railSoftStop g (s.vtgt g) 6
      | .burst => s.railSoftStop g (s.vtgt g) 6
      | _ => s
    s.modRail g fun r => { r with inhibit := true }) s

/-- Cycle 240 of the tick after a rail's entry to SOFT_START, also where the safe state has it in SOFT_STOP by then: its carrier is set to 0
and its healthy members start switching (R161, R177 step 4) (notes/assumptions/29.md). -/
def State.startMembers (s : State) : State :=
  let s := s.zeroCarriers fun g => s.phs.rail[g].startAt + 1 == s.now && (s.phs.rail[g].state == .softStart || s.phs.rail[g].state == .softStop)
  (fins 48).foldl (fun (s : State) (n : Fin 48) =>
    let p := s.phs.ph[n]
    let due := match s.phRail n with
      | some g => s.phs.rail[g].startAt + 1 == s.now
      | none => false
    if p.startDue && !p.fault && due then s.modPh n fun p => { p with sw := true, startDue := false, started := false, bounded := false } else s) s

/-! ### The switching period (R161-R166, R186) -/

/-- The comparator has found the sensed code at the threshold, `on` steps into the on-time (R162, R164, R166): the effective code less
the ramp, and in reverse the code plus the ramp. A unit of slope is 1/45,000 code per step. -/
def PhaseSt.crossed (p : PhaseSt) (sense : BitVec 12) (on : Nat) : Bool :=
  let ramp := fld p.slope 0 12 * on
  if p.dir then decide (45000 * sense.toNat ≤ 45000 * p.eff.toNat + ramp) else decide (45000 * p.eff.toNat ≤ 45000 * sense.toNat + ramp)

/-- The length of the on-time that ends `on` steps after it began, if it ends there (R162 steps 3 and 4). -/
def PhaseSt.ends (p : PhaseSt) (per : Nat) (sense : BitVec 12) (on : Nat) : Option Nat :=
  if p.longest per ≤ on then some (p.longest per)
  else if p.deaf ≤ on ∧ p.crossed sense on = true then some on
  else none

/-- Distance of a code from 0 mV. -/
def codeMag (c : BitVec 12) : Nat := ((c.toNat : Int) - 2048).natAbs

/-- The end of an on-time of `on` steps with its sensed code: the period counts toward phase-open detection or not (R186). -/
def PhaseSt.endOn (p : PhaseSt) (thr : Nat) (sense : BitVec 12) (on : Nat) : PhaseSt :=
  let counts := decide (thr < codeMag p.eff) && decide (p.deaf < on) && decide (codeMag sense < thr)
  { p with onTime := false, openCnt := if thr = 0 then p.openCnt else if counts then satAdd p.openCnt 1 else 0 }

/-- PWMH and PWML `d` steps after a period start whose on-time lasts `on` steps (R162-R164, R170). -/
def PhaseSt.levelsAt (p : PhaseSt) (d on : Nat) : Bool × Bool :=
  if !(p.sw && p.started) then (false, false)
  else if !p.pulse then (false, true)
  else
    let first := decide (p.rise ≤ d) && decide (d < p.rise + on)
    let second := decide (p.rise + on + p.fall ≤ d)
    if p.dir then (second, first) else (first, second)

/-- PWMH and PWML with every dead time of the period over (R162-R164, R170). -/
def PhaseSt.levels (p : PhaseSt) : Bool × Bool :=
  if !(p.sw && p.started) then (false, false)
  else if !p.pulse then (false, true)
  else if p.dir then (!p.onTime, p.onTime) else (p.onTime, !p.onTime)

def State.openThr (s : State) (n : Fin 48) : Nat := fld (s.reg (phA n 0x28)) 0 12

/-- A period that is still in its on-time at the next period start `t` ended at the longest on-time; the sensed code at its end is a free
value where no COMPARATOR_TRIP gave it (R162, R186) (notes/assumptions/9.md, 62.md). -/
def State.closePeriod (s : State) (n : Fin 48) (t : Nat) : State :=
  if s.phs.ph[n].onTime then
    (s.modPh n fun p => p.endOn (s.openThr n) ((Config.freeWord s.freeCtr).setWidth 12) (p.longest (s.periodLen n t))).drawn
  else s

/-- A rail's phases may switch: from the strobe of the tick after its entry to SOFT_START (R177). -/
def State.mayStart (s : State) (g : Fin 16) : Bool :=
  let r := s.phs.rail[g]
  r.state.active && ((r.state != .softStart && r.state != .softStop) || decide (r.startAt + 1 < s.now) || (decide (r.startAt + 1 = s.now) && !s.time.strobeDue))

/-- A period starts: the effective code, the direction and the timing in force for it (R162-R164, R168, R182). -/
def State.newPeriod (s : State) (n : Fin 48) (t : Nat) : State :=
  let burst : Bool := match s.phRail n with | some g => s.phs.rail[g].state == .burst | none => false
  let was := s.phs.ph[n]
  let s := s.modPh n fun p => { p with started := true, ipk := burst, mb := if s.isBattery n then s.batBounds else none, began := t, onLeast := 0 }
  let eff := s.effCode n
  let (hi, lo) := s.cbcLimits n
  let raw := s.refCode n
  let bound := decide (hi.toNat < raw.toNat) || decide (raw.toNat < lo.toNat)
  let bidir := bit (s.phCfg n) 30
  let pulse := bidir || decide (2048 < eff.toNat)
  let say := bound && (!was.bounded || !was.started)
  let s := s.modPh n fun p => { p with eff := eff, dir := bidir && decide (eff.toNat < 2048), onTime := pulse, pulse := pulse, bounded := bound,
                                       cbc := if bound then satAdd p.cbc 1 else p.cbc,
                                       dt := s.reg (phA n 0x04), tmg := s.reg (phA n 0x08), slope := s.reg (phA n 0x10),
                                       pulses := if burst then p.pulses - 1 else p.pulses,
                                       stopDue := if burst && decide (p.pulses ≤ 1) then some 9 else none }
  if say then s.dev 0x206 1 [nw n.val, raw.setWidth 32] else s

/-- A period start of a phase: one that is to stop stops, one that is due starts switching, and one that switches begins a period,
unless the period that ends here was the 32nd counted one (R186). -/
def State.startPeriod (s : State) (n : Fin 48) (t : Nat) : State :=
  let s := s.closePeriod n t
  let p := s.phs.ph[n]
  if p.sw ∧ 32 ≤ p.openCnt.toNat then s
  else match p.stopDue with
    | some _ => (s.modPh n PhaseSt.stop).evp 8
    | none =>
      let ready := p.startDue && !p.fault && (match s.phRail n with | some g => s.mayStart g | none => false)
      let s := if ready then s.modPh n fun p => { p with sw := true, startDue := false, started := false, bounded := false } else s
      if s.phs.ph[n].sw then s.newPeriod n t else s

/-- PERIOD_START: the carrier reaches the phase's offset, in the part of the tick in progress (R161-R164, R168, R182) (notes/assumptions/62.md). -/
def State.periodStart (s : State) (n : Fin 48) : State :=
  match s.periodAt n with
  | some t => s.startPeriod n t
  | none => s

/-- COMPARATOR_TRIP: the comparator finds `sense`, `on` steps into the on-time; it ends there, or at its longest, or goes on
(R162, R164, R186) (notes/assumptions/62.md). -/
def State.comparatorTrip (s : State) (n : Fin 48) (sense : BitVec 12) (on : BitVec 18) : State :=
  let p := s.phs.ph[n]
  match p.ends (s.periodLen n (s.nextPeriod n)) sense on.toNat with
  | some k => if p.onTime then s.modPh n fun p => p.endOn (s.openThr n) sense k else s
  | none => s

/-- PHASE_OPEN: the 32nd consecutive counted period has ended (R186) (notes/assumptions/1.md). -/
def State.phaseOpen (s : State) (n : Fin 48) : State :=
  let p := s.phs.ph[n]
  if 32 ≤ p.openCnt.toNat ∧ p.sw ∧ ¬ p.fault ∧ ¬ s.inStandby then s.faultPhase n 5 0x202 [p.eff.setWidth 32] else s

/-- PHASE_SENSE_OPEN: a check finds the sense connection open (R184). -/
def State.senseOpen (s : State) (n : Fin 48) : State :=
  let p := s.phs.ph[n]
  if p.sw ∧ ¬ p.fault ∧ ¬ s.inStandby then s.faultPhase n 4 0x201 [] else s

/-- The over-current comparator of a phase is at work: while it switches, and while it sleeps in BURST (R174, R183); a standby switches
nothing, and its faults are those mirrored (01 R37). -/
def State.aocOn (s : State) (n : Fin 48) : Bool :=
  !s.inStandby && (s.phs.ph[n].sw || (match s.phRail n with | some g => s.phs.rail[g].state == .burst && s.isRunning g n | none => false))

/-- PHASE_AOC: the sensed code lies outside the absolute window (R183). -/
def State.phaseAoc (s : State) (n : Fin 48) (code : BitVec 12) : State :=
  let p := s.phs.ph[n]
  let w := s.reg (phA n 0x20)
  if s.aocOn n ∧ ¬ p.fault ∧ (fld w 16 12 < code.toNat ∨ code.toNat < fld w 0 12) then s.aocTrip n code else s

/-- The on-times that the wrap at step `t` finds under way keep what has passed of them (R168). -/
def State.keepOn (s : State) (g : Fin 16) (t : Nat) : State :=
  (s.running g).foldl (fun (s : State) (n : Fin 48) =>
    s.modPh n fun p => if p.onTime then { p with onLeast := t - p.began - p.rise } else p) s

/-- CARRIER_WRAP: the carrier wraps, and changed offsets come into force (R168) (notes/assumptions/62.md). -/
def State.carrierWrap (s : State) (g : Fin 16) : State :=
  match s.wrapAt g with
  | some t => ((s.keepOn g t).modRail g fun r => { r with zero := t }).loadOfs g
  | none => s

/-- After a commit: phases that left their rail (R169), PHS_AOC pairs that changed (R183), the DACs (R167). -/
def State.phsCommitted (s : State) (changed : List Nat) : State :=
  let s := (fins 48).foldl (fun (s : State) (n : Fin 48) =>
    let p := s.phs.ph[n]
    let s := match p.rail with
      | some g =>
        if s.phRail n == some g then s
        else (s.evp 8).modPh n fun p => if p.sw then { p with rail := none, shed := false, rejoin := false, startDue := false, stopDue := some (if bit (s.phCfg n) 31 then 1 else 8) }
                                        else { p.stop with rail := none, shed := false, rejoin := false }
      | none => s
    if changed.any (fun a => a == phA n 0x20 || a == phA n 0x24) then s.checkAoc n else s) s
  s.loadEff

/-- A write to PHS_CLR[n]: clear a fault, the returned mark, the counters (R188). -/
def State.phsClr (s : State) (ini : Initiator) (n : Fin 48) (v : Word) : State :=
  let s := if bit v 0 then s.clearFault n (iniWord ini) else s
  let s := if bit v 1 then s.modPh n fun p => { p with burned := false } else s
  if bit v 2 then s.modPh n fun p => { p with cbc := 0, aoc := 0 } else s

/-- Reads of phase and rail status. -/
def State.phsRead (s : State) (o : Nat) : Word :=
  if o < 0x3000 then
    let n : Fin 48 := idx (o / 0x100)
    let p := s.phs.ph[n]
    match o % 0x100 with
    | 0x40 => bw p.sw 31 ||| bw p.dir 30 ||| bw p.burned 29 ||| bw p.fault 28 ||| at_ (s.phCause n) 20 ||| at_ p.openCnt 8
    | 0x44 => at_ p.cbc 16 ||| at_ p.aoc 0
    | 0x48 => at_ p.eff 16 ||| at_ p.raw 0
    | _ => 0
  else if o < 0x4000 then
    let g : Fin 16 := idx ((o - 0x3000) / 0x100)
    let r := s.phs.rail[g]
    match o % 0x100 with
    | 0x40 => bw r.en 0
    | 0x44 => at_ r.cause 28 ||| at_ r.retries 24 ||| nw (s.nRun g) <<< 16 ||| bw r.inhibit 9 ||| bw r.inreg 8 ||| bw r.enPending 7 ||| nw r.state.code
    | 0x48 => r.ramp
    | 0x4C => r.pre
    | _ => 0
  else if o = 0x4000 then nw 16 <<< 16 ||| nw s.nPhases
  else
    let i := (o - 0x4010) / 4
    (fins 48).foldl (fun w n => if n.val / 32 = i ∧ s.phs.ph[n].fault ∧ n.val < s.nPhases then w ||| bw true (n.val % 32) else w) 0

/-- Writes of PHS_CLR and PHS_GRP_CTRL (R188, 19 R402). -/
def State.phsWrite (s : State) (ini : Initiator) (o : Nat) (v lane : Word) : State :=
  if o < 0x3000 then (if o % 0x100 = 0x4C then s.phsClr ini (idx (o / 0x100)) v else s)
  else if o % 0x100 = 0x40 ∧ bit lane 0 then
    let g : Fin 16 := idx ((o - 0x3000) / 0x100)
    if bit v 0 ∧ (s.pwr.state ≠ 0 ∨ s.pwr.busy) then s.flagErr errLocked (0x20000 + o)
    else s.modRail g fun r => { r with en := bit v 0 }
  else s

end Sys2Proof.Machine
end

