-- ==== Sys2Proof/Machine/Sched.lean ====
section
/-! DEFINITION. The Firebox schedule: cost and placement of contexts, and the check of cycle 599 (05 R116, R117, R122-R126). -/

namespace Sys2Proof.Machine

/-- What the schedule needs to know of an enabled context. -/
structure Plan where
  x : Nat
  cls : Bool
  ctrl : Word
  start : Nat
  stop : Nat
  lane : Nat
  wcode : Nat
  /-- selectors the context reads in the compute window -/
  srcs : List (BitVec 16)
  /-- destinations of each output -/
  outs : List (List (BitVec 16))
  /-- matrix-store words named: offset and length -/
  base : Nat
  len : Nat
  q : Nat
  sched : Option (Nat × BitVec 16)
  deriving DecidableEq, Repr

def half (w : Word) (hi : Bool) : BitVec 16 := bits w (if hi then 16 else 0) 16
def selKind (s : BitVec 16) : Nat := fld s 12 4
def selIdx (s : BitVec 16) : Nat := fld s 0 12
def selCtx (s : BitVec 16) : Nat := fld s 0 7
def selOut (s : BitVec 16) : Nat := fld s 7 3

/-- Dimensions of a class S context: n, m, p. -/
def dims (mb : Word) : Nat × Nat × Nat := (fld mb 16 3 + 1, fld mb 19 3 + 1, fld mb 22 3 + 1)

/-- Slots of a class C context (R116). -/
def costC (ctrl : Word) : Nat :=
  (if bit ctrl 29 then 12 else 10) + (if bit ctrl 28 then 5 else 0) + min 4 (fld ctrl 20 3) +
  (bit ctrl 25).toNat + (bit ctrl 24).toNat + (if bit ctrl 26 then 2 else 0)

/-- Cycles a class S context holds its lanes (R116). -/
def holdS (n m p w : Nat) : Nat := (n * n + 2 * n * m + 2 * n * p + p + 3 * m + 8 + w - 1) / w + 12

/-- Words of a class S block (R129). -/
def blockS (n m p : Nat) : Nat := n * n + 2 * n * m + 2 * n * p + 6 * m

/-- The plan of context `x` under the register contents `rd`. -/
def planOf (rd : Nat → Word) (x : Nat) : Plan :=
  let d (w : Nat) := rd (descAddr x w)
  let ctrl := d 0
  let slot := d 1
  let start := fld slot 0 8
  let wcode := fld slot 12 3
  let width := 2 ^ min wcode 4
  if bit ctrl 30 then
    let mb := d 10
    let (n, m, p) := dims mb
    { x := x, cls := true, ctrl := ctrl, start := start, stop := start + holdS n m p width, lane := fld slot 8 4, wcode := wcode,
      srcs := (List.range p).map fun k => half (d (2 + k / 2)) (k % 2 = 1),
      outs := (List.range m).map fun j => [half (d (6 + j / 2)) (j % 2 = 1)],
      base := fld mb 0 13, len := blockS n m p, q := fld mb 28 2, sched := none }
  else
    let ff := fld ctrl 20 3
    let cb := d 20
    { x := x, cls := false, ctrl := ctrl, start := start, stop := start + costC ctrl, lane := fld slot 8 4, wcode := wcode,
      srcs := [half (d 2) false, half (d 2) true] ++ ([half (d 3) false, half (d 3) true, half (d 4) false, half (d 4) true].take ff),
      outs := [[half (d 5) false, half (d 5) true]],
      base := fld cb 0 13, len := 16 * (fld cb 16 3 + 1), q := 0,
      sched := if bit ctrl 27 then some (fld (d 21) 0 8, half (d 21) true) else none }

/-- Enabled contexts under `rd`, ascending. -/
def plans (s : State) (rd : Nat → Word) : List Plan :=
  ((List.range s.nCtx).filter fun x => bit (rd (descAddr x 0)) 31).map (planOf rd)

/-- Cycle in which a sense channel is delivered (02 R41). -/
def delivery (c : Nat) : Nat :=
  if c < 16 then 60 else if c < 32 then 90 else if c < 48 then 120 else if c < 64 then 30 else if c < 80 then 150 else 180

/-- A sense channel of a present instance. -/
def State.chanOk (s : State) (c : Nat) : Bool :=
  if c < 48 then c < s.nPhases else if c < 64 then true else if c < 80 then c - 64 < s.nStrings else c < 96

/-- Two destinations that are the same target (rule 9). -/
def sameTarget (rd : Nat → Word) (a b : BitVec 16) : Bool :=
  let inRail (n g : Nat) : Bool := n < 48 && bit (rd (phA n 0)) 31 && fld (rd (phA n 0)) 16 4 == g
  let (ka, ia, kb, ib) := (selKind a, selIdx a, selKind b, selIdx b)
  if ka = kb then 1 ≤ ka && ka ≤ 3 && ia == ib
  else if ka = 1 ∧ kb = 3 then inRail ia ib
  else if ka = 3 ∧ kb = 1 then inRail ib ia
  else false

/-- Outputs of all plans, with their context. -/
def allOuts (ps : List Plan) : List (Nat × Nat × List (BitVec 16)) :=
  ps.flatMap fun p => p.outs.zipIdx.map fun (d, j) => (p.x, j, d)

/-- Contexts whose outputs conflict under `c` with another output's destination. -/
def outClash (ps : List Plan) (c : BitVec 16 → BitVec 16 → Bool) : List Nat :=
  let os := allOuts ps
  (os.filter fun (x, j, d) => os.any fun (x2, j2, d2) => (x, j) ≠ (x2, j2) && d.any fun a => d2.any fun b => c a b).map (·.1)

/-- A selector within range and present (rule 11). -/
def selOk (s : State) (ps : List Plan) (sel : BitVec 16) : Bool :=
  match selKind sel with
  | 0 => true
  | 1 => selIdx sel < 96 && s.chanOk (selIdx sel)
  | 2 => outOk
  | 3 => outOk
  | 4 => selIdx sel < 32
  | k => k ≤ 8
where
  outOk : Bool := fld sel 10 2 == 0 && selCtx sel < s.nCtx &&
    (match ps.find? fun p => p.x = selCtx sel with
     | some p => if p.cls then true else selOut sel == 0
     | none => true)

/-- A destination within range and present (rule 11). -/
def destOk (s : State) (d : BitVec 16) : Bool :=
  match selKind d with
  | 0 => true
  | 1 => selIdx d < s.nPhases
  | 2 => selIdx d < s.nPhases
  | 3 => selIdx d < 16
  | 4 => selIdx d < 32
  | _ => false

/-- Contexts in breach of each rule 1 to 11 (R124), in order, and exports in breach (notes/assumptions/32.md);
DESIGN CHOICE: rule 11 covers enabled contexts and exports only (notes/assumptions/31.md). -/
def breaches (s : State) (rd : Nat → Word) : List (Nat × List Nat × List Nat) :=
  let ps := plans s rd
  let xs (l : List Plan) : List Nat := l.map (·.x)
  let width (p : Plan) : Nat := 2 ^ min p.wcode 4
  let ex (e : Nat) : Word := rd (0x10200 + 4 * e)
  let exps := (List.range 16).filter fun e => bit (ex e) 31
  let clu := rd 0xD00A0
  let fwd (p : Nat) : Nat :=
    if fld clu 30 2 = 1 then (if fld clu 24 2 = p then 1 else 0)
    else if fld clu 30 2 = 2 then (bit clu (16 + p)).toNat else 0
  let onPort (p : Nat) : List Nat := exps.filter fun e => fld (ex e) 20 2 = p
  let scheds := ps.filter fun p => p.sched.isSome
  let installed (id : Nat) : Bool := s.seq.tbls.any fun t => t.typ = 2 && t.id.toNat = id
  let ss := ps.filter (·.cls)
  let overlap (a b : Plan) : Bool := a.base < b.base + b.len && b.base < a.base + a.len
  [ (1, xs (ps.filter fun p => p.start < 30 || 230 < p.stop), []),
    (2, xs (ps.filter fun p => (if p.cls then 4 < p.wcode else p.wcode ≠ 0) || 16 < p.lane + width p || p.lane % width p ≠ 0), []),
    (3, xs (ps.filter fun p => ps.any fun q => p.x ≠ q.x && p.start < q.stop && q.start < p.stop && p.lane < q.lane + width q && q.lane < p.lane + width p), []),
    (4, xs (ps.filter fun p => p.srcs.any fun sel =>
        (selKind sel = 1 && selIdx sel < 96 && p.start < delivery (selIdx sel)) ||
        (selKind sel = 3 && (ps.any fun q => q.x = selCtx sel && p.start < q.stop)) || p.start < 30), []),
    (5, xs (ps.filter fun p => p.srcs.any fun sel => selKind sel = 3 &&
        !(ps.any fun q => q.x = selCtx sel && q.x ≠ p.x && selOut sel < q.outs.length)), []),
    (6, if 4 < ss.length then xs ss else xs (ss.filter fun p => ss.any fun q => p.x ≠ q.x && p.q = q.q), []),
    (7, if 64 < scheds.length then xs scheds else xs (scheds.filter fun p => !(p.sched.any fun c => installed c.1)), []),
    (8, xs (ps.filter fun p => 8192 < p.base + p.len || ps.any fun q => p.x ≠ q.x && (p.cls || q.cls) && overlap p q), []),
    (9, outClash ps (sameTarget rd), []),
    (10, outClash ps (fun a b => selKind a = 4 && selKind b = 4 && selIdx a = selIdx b),
        (List.range 4).flatMap fun p => if 4 < (onPort p).length + fwd p then onPort p else []),
    (11, xs (ps.filter fun p =>
        p.srcs.any (fun sel => !selOk s ps sel) || p.outs.any (fun d => d.any fun a => !destOk s a) ||
        p.base % 16 ≠ 0 ||
        (if p.cls then fld p.ctrl 20 10 ≠ 0 else 4 < fld p.ctrl 20 3) ||
        p.sched.any fun c => !(selOk s ps c.2 && (selKind c.2 = 1 || selKind c.2 = 2 || selKind c.2 = 4 || selKind c.2 = 6))),
        exps.filter fun e => s.nPorts ≤ fld (ex e) 20 2) ]

/-- The first rule that fails: rule, kind word (0 context, 1 export), index (R125) (notes/assumptions/32.md). -/
def schedCheck (s : State) (rd : Nat → Word) : Option (Nat × Nat × Nat) :=
  ((breaches s rd).find? fun (_, cs, es) => cs ≠ [] || es ≠ []).map fun (r, cs, es) =>
    match cs.min? with
    | some x => (r, 0, x)
    | none => (r, 1, es.min?.getD 0)

/-- Whether a shadow write is to a structural word: the class of the shadow CTRL word, both when CTRL.cls changes (05). -/
def State.isStructural (s : State) (a : Nat) : Bool :=
  if isDesc a then
    let x := (a - 0x14000) / 128
    let w := a % 128 / 4
    let new := s.shCls x
    let old := bit (s.reg (descAddr x 0)) 30
    (if new then structuralS w else structuralC w) || (new != old && (structuralC w || structuralS w))
  else 0x10200 ≤ a && a < 0x10240

/-- FBX_STAT.used and last of the active schedule. -/
def State.schedUse (s : State) : Nat × Nat :=
  let ps := plans s s.reg
  ((ps.map fun p => (p.stop - p.start) * 2 ^ min p.wcode 4).foldl (· + ·) 0, ((ps.map fun p => p.stop - 1).max?).getD 0)

/-- Matrix-store word in use: named by the active descriptor of an enabled context (R127). -/
def State.matrixInUse (s : State) (w : Nat) : Bool :=
  (plans s s.reg).any fun p => p.base ≤ w && w < p.base + p.len

end Sys2Proof.Machine
end

