-- ==== Sys2Proof/Machine/Fbx.lean ====
section
/-! DEFINITION. The Firebox: sources, the two laws, faults, following-error supervision, priming, coefficient sets
(05_firebox.md, 06_control_laws.md). -/

namespace Sys2Proof.Machine

def State.desc (s : State) (x : Fin 128) (w : Nat) : Word := s.reg (descAddr x.val w)
/-- A word of the matrix store. -/
def State.mat (s : State) (w : Nat) : Word := s.word (0x18000 + 4 * (w % 8192))
def State.ctxEn (s : State) (x : Fin 128) : Bool := x.val < s.nCtx && bit (s.desc x 0) 31
/-- SUPV word by class. -/
def State.supv (s : State) (x : Fin 128) : Word := if bit (s.desc x 0) 30 then s.desc x 11 else s.desc x 14
def State.tfe (s : State) (x : Fin 128) : Nat := fld (s.supv x) 0 16
/-- CONST word address by class. -/
def State.constAddr (s : State) (x : Fin 128) : Nat := if bit (s.desc x 0) 30 then descAddr x.val 16 else descAddr x.val 23
def ppMasked (s : State) (x : Fin 128) : Bool := bit (s.reg (0xD0030 + 4 * (x.val / 32))) (x.val % 32)

/-- The ramp that a rail supplies to context `x` in this tick (07 R177, R180). -/
def State.rampFor (s : State) (x : Fin 128) : Option Word :=
  ((fins 16).find? fun g => s.xv g == x && (s.rampVal g).isSome).map fun g => s.phs.rail[g].ramp

/-- REF as a masked context reads it (08 R205). -/
def State.refMasked (s : State) (x : Fin 128) (ref : Word) : Word := if ppMasked s x then fAdd ref s.dft.ppV else ref

/-- What a source selector reads for context `x` (05 R121); REF that must be read from its pair answers its soundness too. -/
def State.source (s : State) (x : Fin 128) (sel : BitVec 16) : Option Word :=
  match selKind sel with
  | 1 => some (if h : selIdx sel < 96 then s.sns.sample[selIdx sel] else 0)
  | 2 => some (s.fbx.ctx[(idx (selCtx sel) : Fin 128)].rel[(idx (selOut sel) : Fin 8)])
  | 3 => some (s.fbx.ctx[(idx (selCtx sel) : Fin 128)].out[(idx (selOut sel) : Fin 8)])
  | 4 => some (s.fbx.imp[(idx (selIdx sel) : Fin 32)].val)
  | 5 =>
    match s.rampFor x with
    | some r => some r
    | none => (s.pair (s.refAddr x.val)).map (s.refMasked x)
  | 6 => some (s.reg (s.constAddr x))
  | 7 => some s.fbx.ctx[x].traj
  | 8 => some s.fbx.ctx[x].acff
  | _ => some 0

/-- A context faults (R135, R136); a class S context enabled from 0 starts from x̂ = +0 all the same (06 R157). `opened` is the tick the
window opened, for cause 1. A STOP action is taken by the rail's next step (notes/assumptions/31.md). -/
def State.ctxFault (s : State) (x : Fin 128) (cause : BitVec 3) (opened : List Word) : State :=
  let cls := bit (s.desc x 0) 30
  let s : State := if cls ∧ s.fbx.ctx[x].prime = .enabled then
      { s with fbx := { s.fbx with xnext := s.fbx.xnext.set (idx (fld (s.desc x 10) 28 2) : Fin 4) (some (Vector.replicate 8 0)) } }
    else s
  let fa := fld (s.supv x) 20 2
  let act : Nat := if fa = 3 then 1 else if fa = 2 ∧ cls then 0 else fa
  let s := s.modCtx x fun c => { c with fault := true, cause := cause, act := BitVec.ofNat 2 act, out := c.rel, fresh := true, ran := false,
                                        prime := .no, clampHi := false, clampLo := false, rate := false }
  let s := if act = 1 then s.modRail (idx (fld (s.supv x) 16 4)) fun r => { r with stopAct := true } else s
  (s.evp 7).dev 0x100 5 ([nw x.val, cause.setWidth 32, nw act] ++ opened)

/-- The sum of products in the order written (R139): the first rounded, each further one added by one multiply-accumulate. -/
def fSum : List (Word × Word) → Word
  | [] => 0
  | (a, b) :: ts => ts.foldl (fun acc t => fMac acc t.1 t.2) (fMul a b)

/-- Feed-forward sum (R143); `none` if a REF pair it reads mismatches. -/
def State.ffSum (s : State) (x : Fin 128) : Option Word :=
  let ctrl := s.desc x 0
  let sels := [half (s.desc x 3) false, half (s.desc x 3) true, half (s.desc x 4) false, half (s.desc x 4) true].take (fld ctrl 20 3)
  let terms := sels.zipIdx.map fun (sel, i) => (s.source x sel).map fun v => (s.desc x (16 + i), v)
  if terms.any (·.isNone) then none
  else
    let ts := terms.filterMap id
    some (fSum (ts ++ (if bit ctrl 25 then [(fOne, s.fbx.ctx[x].traj)] else []) ++ (if bit ctrl 24 then [(fOne, s.fbx.ctx[x].acff)] else [])))

/-- Coefficient `i` of the context's set `k` (R128). -/
def State.coef (s : State) (x : Fin 128) (k i : Nat) : Word := s.mat (fld (s.desc x 20) 0 13 + 16 * k + i)

/-- Terms of the law but for b0·w[t] (R142), for set `k` and histories. -/
def State.lawTail (s : State) (x : Fin 128) (k : Nat) (w1 w2 w3 v1 v2 v3 : Word) : List (Word × Word) :=
  let c := s.coef x k
  if bit (s.desc x 0) 29 then
    [(c 1, w1), (c 2, w2), (c 3, w3), (fNegW (c 4), v1), (fNegW (c 5), v2), (fNegW (c 6), v3)]
  else [(c 1, w1), (c 2, w2), (fNegW (c 4), v1), (fNegW (c 5), v2)]

/-- Terms of the notch but for n0·e[t] (R141). -/
def State.notchTail (s : State) (x : Fin 128) (k : Nat) (e1 e2 w1 w2 : Word) : List (Word × Word) :=
  let c := s.coef x k
  [(c 9, e1), (c 10, e2), (fNegW (c 11), w1), (fNegW (c 12), w2)]

/-- Supervision of a computed tick (R154, R155). -/
def State.superviseCtx (s : State) (x : Fin 128) (e : Word) (emax : Word) : State :=
  if s.tfe x = 0 then s
  else
    let bad := fpGt e emax || fIsNaN e || fIsNaN emax || fpLt emax 0
    let c := s.fbx.ctx[x]
    if bad then
      if c.feRun then s.modCtx x fun c => { c with feTicks := satAdd c.feTicks 1 }
      else (s.modCtx x fun c => { c with feRun := true, feTicks := 1, feOpen := s.time.tick }).dev 0x105 1
        ([nw x.val] ++ tickWords s.time.tick ++ [e, emax])
    else s.modCtx x fun c => { c with feRun := false, feTicks := 0 }

/-- The reader named in record 0x019 for the Firebox. -/
abbrev fbxReader : Word := Config.codeOf 0x019 1 4

/-- Words of a coefficient set that a context with the control word `ctrl` reads (R128). -/
def coefUsed (ctrl : Word) (w : Nat) : Bool :=
  w ≤ 2 || w == 4 || w == 5 || (bit ctrl 29 && (w == 3 || w == 6)) || (bit ctrl 28 && decide (8 ≤ w) && decide (w ≤ 12))

/-- The coefficient set in force in a computing tick: set 0 in a priming one (R131). -/
def State.setNow (s : State) (x : Fin 128) : Nat :=
  let c := s.fbx.ctx[x]
  if bit (s.desc x 0) 27 ∧ c.prime = .no then c.set.toNat else 0

/-- Whether a context reads the matrix-store word `w` in this tick: its block, or the words used of the set in force (R128, R129). -/
def State.ctxReads (s : State) (x : Fin 128) (w : Nat) : Bool :=
  let p := planOf s.reg x.val
  if p.cls then p.base ≤ w && w < p.base + p.len
  else
    let b := p.base + 16 * s.setNow x
    b ≤ w && w < b + 16 && coefUsed p.ctrl (w - b)

/-- Words of memory that a context reads and that hold an error: corrected ones are counted, an uncorrectable one is told (R30) (notes/assumptions/59.md). -/
def State.ctxEcc (s : State) (x : Fin 128) : State × Bool :=
  s.readAll fbxReader ((s.ecc.filter fun e =>
    (descAddr x.val 0 ≤ e.1 && e.1 < descAddr x.val 32) || (inMatrix e.1 && s.ctxReads x ((e.1 - 0x18000) / 4))).map (·.1))

/-- The start value and the rest of a priming tick (R157). -/
def State.primeStart (s : State) (x : Fin 128) : Option Word :=
  let c := s.fbx.ctx[x]
  match c.prime with
  | .no => none
  | .enabled => some (s.reg (s.constAddr x))
  | .rearmed => some c.rel[(0 : Fin 8)]
  | .lawChanged => some c.rel[(0 : Fin 8)]
  | .resume u => some u

/-- The clamp of an output (R144, R145): an infinite clamp does not clamp on its side, but that a lower clamp above a finite upper
one makes the output the upper one (notes/assumptions/31.md). `zl`, `zh`: which of two zeros of unlike sign is taken. -/
def clampTo (zl zh : Bool) (u lo hi : Word) : Word :=
  let infinite (w : Word) : Bool := !fIsFinite w && !fIsNaN w
  let a := if infinite lo && !(fpGt lo hi && fIsFinite hi) then u else fpMax zl u lo
  if infinite hi then a else fpMin zh a hi

/-- One class C context computes (R140-R147, R154-R158) (notes/assumptions/9.md, 31.md). -/
def State.runC (s : State) (x : Fin 128) : State :=
  let ctrl := s.desc x 0
  let mr := s.desc x 2
  let z (k : Nat) : Bool := Config.zeroChoice (s.freeCtr + k)
  let s := { s with freeCtr := s.freeCtr + 4 }
  match s.source x (half mr true), s.source x (half mr false), s.ffSum x,
        s.pair (descAddr x.val 8), s.pair (descAddr x.val 10) with
  | some r, some y, some f, some hi, some lo =>
    if s.tfe x ≠ 0 ∧ (s.pair (descAddr x.val 12)).isNone then s.ctxFault x 2 []
    else
      let c0 := s.fbx.ctx[x]
      let e := fSub r y
      let prime := s.primeStart x
      let c := match prime with
        | none => c0
        | some u => let h := fSub u f
                    { c0 with e1 := e, e2 := e, w1 := e, w2 := e, w3 := e, v1 := h, v2 := h, v3 := h, oL := none, oN := none, set := 0 }
      let k := if bit ctrl 27 then c.set.toNat else 0
      let uPrev := prime.getD c.rel[(0 : Fin 8)]
      let one (o : Option Word) : List (Word × Word) := match o with | some v => [(fOne, v)] | none => []
      let w := if bit ctrl 28 then fSum ((s.coef x k 8, e) :: (s.notchTail x k c.e1 c.e2 c.w1 c.w2 ++ one c.oN)) else e
      let v := fSum ((s.coef x k 0, w) :: (s.lawTail x k c.w1 c.w2 c.w3 c.v1 c.v2 c.v3 ++ one c.oL))
      let uRaw := fAdd v f
      let rt := s.desc x 15
      let rate := if fIsNaN rt || fSign rt then 0 else rt
      let uR := if bit ctrl 26 then
          (if fpEq rate 0 then uPrev else fpMin (z 0) (fpMax (z 1) uRaw (fSub uPrev rate)) (fAdd uPrev rate))
        else uRaw
      let u := clampTo (z 3) (z 2) uR lo hi
      if !([e, w, v, f, uRaw, u].all fIsFinite) || fIsNaN hi || fIsNaN lo then s.ctxFault x 4 []
      else
        let cut := fSub uRaw u
        let mv := fSub v c.v1
        let hold := !fpEq cut 0 && !fpEq mv 0 && fSign cut == fSign mv
        let s := s.modCtx x fun _ => { c with
          e1 := e, e2 := c.e1, w1 := w, w2 := c.w1, w3 := c.w2, v1 := if hold then c.v1 else v, v2 := c.v1, v3 := c.v2,
          oL := none, oN := none, prime := .no, ran := true, out := Vector.replicate 8 0 |>.set 0 u,
          rate := bit ctrl 26 && !fpEq uR uRaw, clampHi := fpGt uR hi, clampLo := fpLt uR lo, set := BitVec.ofNat 3 k }
        s.superviseCtx x (fAbsW e) (s.reg (descAddr x.val 12))
  | _, _, _, _, _ => s.ctxFault x 2 []

/-- One class S context computes (R148-R152) (notes/assumptions/9.md, 31.md). -/
def State.runS (s : State) (x : Fin 128) : State :=
  let mb := s.desc x 10
  let (n, m, p) := dims mb
  let q : Fin 4 := idx (fld mb 28 2)
  let b := fld mb 0 13
  let oB := b + n * n
  let oC := oB + n * m
  let oL := oC + p * n
  let oK := oL + n * p
  let oG := oK + m * n
  let oU := oG + 2 * m
  let z (k : Nat) : Bool := Config.zeroChoice (s.freeCtr + k)
  let s := { s with freeCtr := s.freeCtr + 16 }
  let c := s.fbx.ctx[x]
  let ys := (List.range p).map fun k => s.source x (half (s.desc x (2 + k / 2)) (k % 2 = 1))
  let clamp (j : Nat) : Option (Word × Word) :=
    let h := s.mat (oU + 4 * j)
    let l := s.mat (oU + 4 * j + 2)
    if s.mat (oU + 4 * j + 1) = ~~~ h ∧ s.mat (oU + 4 * j + 3) = ~~~ l then some (h, l) else none
  let cl := (List.range m).map clamp
  match s.pair (descAddr x.val 14) with
  | none => s.ctxFault x 2 []
  | some ref0 =>
    if ys.any (·.isNone) || cl.any (·.isNone) || (s.tfe x ≠ 0 && (s.pair (descAddr x.val 12)).isNone) then s.ctxFault x 2 []
    else
      let ref := s.refMasked x ref0
      let yd := ys.filterMap fun y => y.map fun y => fSub y ref
      let xh : List Word := match c.prime with | .enabled => List.replicate 8 0 | _ => s.fbx.xhat[q].toList
      let xi (i : Nat) : Word := xh.getD i 0
      let rows (base w : Nat) (i : Nat) (v : Nat → Word) (neg : Bool) : List (Word × Word) :=
        (List.range w).map fun j => let a := s.mat (base + i * w + j); (if neg then fNegW a else a, v j)
      let pre := (List.range m).map fun j =>
        fSum ([(s.mat (oG + 2 * j), c.traj), (s.mat (oG + 2 * j + 1), c.acff)] ++ rows oK n j xi true)
      let cl := cl.filterMap id
      -- equal outputs draw one choice of zeros, and so stay bit-identical (R151)
      let us := (pre.zip cl).map fun (u, h, l) =>
        let j := (pre.zip cl).findIdx (· == (u, h, l))
        clampTo (z (2 * j + 1)) (z (2 * j)) u l h
      let ep := (List.range p).map fun k => fSum ((fOne, yd.getD k 0) :: rows oC n k xi true)
      let xn := (List.range n).map fun i =>
        fSum (rows b n i xi false ++ rows oB m i (fun j => us.getD j 0) false ++ rows oL p i (fun k => ep.getD k 0) false)
      if !((pre ++ ep ++ xn).all fIsFinite) || cl.any (fun (h, l) => fIsNaN h || fIsNaN l) then s.ctxFault x 4 []
      else
        let pad (l : List Word) : Vector Word 8 := Vector.ofFn fun i => l.getD i.val 0
        let s := s.modCtx x fun c => { c with
          prime := .no, ran := true, out := pad us, rate := false,
          clampHi := (pre.zip cl).any fun (u, h, _) => fpGt u h, clampLo := (pre.zip cl).any fun (u, _, l) => fpLt u l }
        let s := { s with fbx := { s.fbx with xnext := s.fbx.xnext.set q (some (pad xn)) } }
        s.superviseCtx x (fAbsW (yd.getD 0 0)) (s.reg (descAddr x.val 12))

/-- Whether a running following-error window has reached the active t_fe (R155 step 4). -/
def State.feDue (s : State) (x : Fin 128) : Bool :=
  let c := s.fbx.ctx[x]
  c.feRun && s.tfe x != 0 && decide (s.tfe x ≤ c.feTicks.toNat)

/-- The fault of an expired following-error window (R155). -/
def State.feFault (s : State) (x : Fin 128) : State :=
  let t := s.fbx.ctx[x].feOpen
  (s.modCtx x fun c => { c with feRun := false, feTicks := 0 }).ctxFault x 1 (tickWords t)

/-- The active repeats its outputs in the tick before an announced swap (17 R367). -/
def State.swapHold (s : State) : Bool :=
  s.pr.role == .active && s.pr.swapAnn && (match s.pr.swapAt with | some b => decide (b ≤ s.now + 1) | none => false)

/-- Whether the Firebox computes in this tick: not halted, and not past the freeze (R138). -/
def State.fbxOn (s : State) : Bool :=
  !s.fbx.halted && !s.fbx.frozen && !s.swapHold && (match s.fbx.freezeFrom with | some t => decide (s.now < t) | none => true)

/-- A source whose value of this tick is there: a sample once delivered, an output of this tick once its context has computed or
stands on its held output (R122, 02 R42). -/
def State.srcReady (s : State) (sel : BitVec 16) : Bool :=
  match selKind sel with
  | 1 => !decide (selIdx sel < 96) || !s.chanOk (selIdx sel) || bit s.sns.seen (selIdx sel)
  | 3 =>
    let q : Fin 128 := idx (selCtx sel)
    s.fbx.ctx[q].ran || s.fbx.ctx[q].fault || !s.ctxEn q
  | _ => true

/-- The cycle in which the context would start now: its start cycle, or a later one of the compute window (R117; notes/assumptions/4.md). -/
def State.startCycle (s : State) (x : Fin 128) : Nat := max s.cycle (planOf s.reg x.val).start

/-- The context can start: in the compute window, before the strobe, with every source there (02 R39, R42). -/
def State.ctxReady (s : State) (x : Fin 128) : Bool :=
  s.time.strobeDue && decide (30 ≤ s.startCycle x) && decide (s.startCycle x ≤ 229) && (planOf s.reg x.val).srcs.all s.srcReady

/-- A computing context computes its law, or faults on a word of memory. -/
def State.ctxCompute (s : State) (x : Fin 128) : State :=
  let r := s.ctxEcc x
  if r.2 then r.1.ctxFault x 3 []
  else if bit (s.desc x 0) 30 then r.1.runS x else r.1.runC x

/-- A following-error window that has run out without its fault (R155 step 4): whether the context computes or not. -/
def State.feExpired (s : State) (x : Fin 128) : Bool := !s.fbx.ctx[x].fault && !s.fbx.ctx[x].ran && s.feDue x

/-- CONTEXT_RUN: an enabled context that has not computed in this tick computes. -/
def State.contextRun (s : State) (x : Fin 128) : State :=
  let c := s.fbx.ctx[x]
  if s.feExpired x then s.feFault x
  else if s.ctxEn x && s.fbxOn && !c.fault && !c.ran && s.ctxReady x then State.ctxCompute { s with cycle := s.startCycle x } x
  else s

/-- FE_EXPIRE (R155): the window of a context expires at cycle 0 (notes/assumptions/1.md). -/
def State.feExpire (s : State) (x : Fin 128) : State := if s.cycle = 0 ∧ s.feExpired x = true then s.feFault x else s

/-- Cycle 0 for the contexts: a new computing tick; faulted contexts stand on their held outputs or, under FREE, on CONST (R122, R136). -/
def State.fbxTick (s : State) : State :=
  let frozen := s.fbx.frozen || (match s.fbx.freezeFrom with | some t => decide (t ≤ s.now) | none => false)
  let s := { s with fbx := { s.fbx with frozen := frozen } }
  (fins 128).foldl (fun (s : State) (x : Fin 128) =>
    let c := s.fbx.ctx[x]
    if c.fault || c.ran || c.ranPrev then
      s.modCtx x fun c => { c with
        ranPrev := c.ran, ran := false, clampHi := false, clampLo := false, rate := false,
        out := if c.fault then (if c.act = 2 ∧ ¬ c.fresh then c.rel.set 0 (s.reg (s.constAddr x)) else c.rel) else c.out }
    else s) s

/-- The strobe for the contexts: outputs of the tick are released (R123), observer states become readable (R149). -/
def State.fbxStrobe (s : State) : State :=
  let s := (fins 128).foldl (fun (s : State) (x : Fin 128) =>
    if s.ctxEn x && !s.fbx.frozen then
      let s := s.modCtx x fun c => { c with rel := c.out }
      if bit (s.desc x 0) 30 then { s with fbx := { s.fbx with sout := s.fbx.sout.set (idx (fld (s.desc x 10) 28 2) : Fin 4) s.fbx.ctx[x].rel } } else s
    else s) s
  { s with fbx := { s.fbx with
      xhat := Vector.ofFn fun q => (s.fbx.xnext[q]).getD s.fbx.xhat[q],
      xnext := Vector.replicate 4 none } }

/-- Outputs released at this strobe with their destinations: destination, value (R123). -/
def State.released (s : State) : List (BitVec 16 × Word) :=
  (plans s s.reg).flatMap fun p => p.outs.zipIdx.flatMap fun (ds, j) =>
    ds.map fun d => (d, s.fbx.ctx[(idx p.x : Fin 128)].rel[(idx j : Fin 8)])

/-- References and limits go to the phases at the strobe (07 R165-R167, 08 R190). -/
def State.loadRefs (s : State) : State :=
  let rs := s.released
  let s := (fins 48).foldl (fun (s : State) (n : Fin 48) =>
    if n.val < s.nPhases then
      let mine (d : BitVec 16) : Bool := (selKind d = 1 && selIdx d = n.val) || (selKind d = 3 && (s.phRail n).any fun g => g.val = selIdx d)
      let s := s.modPh n fun p => { p with scl := s.reg (phA n 0x14), limA := (rs.find? fun (d, _) => selKind d = 2 && selIdx d = n.val).map (·.2) }
      match rs.find? fun (d, _) => mine d with
      | some (_, v) => s.modPh n fun p => { p with raw := toCode v (s.reg (phA n 0x14)), refA := v }
      | none => s
    else s) s
  s.loadEff

/-- Value of an export (R133): +0 where no enabled output names it. -/
def exportVal (rs : List (BitVec 16 × Word)) (v : Nat) : Word :=
  ((rs.find? fun (d, _) => selKind d = 4 && selIdx d = v).map (·.2)).getD 0

/-- Matrix-store addresses of the history parts of set `k` (R158): every word used but b0 and n0. -/
def State.histAddrs (s : State) (x : Fin 128) (k : Nat) : List Nat :=
  ((List.range 13).filter fun w => coefUsed (s.desc x 0) w && w != 0 && w != 8).map fun w => 0x18000 + 4 * ((fld (s.desc x 20) 0 13 + 16 * k + w) % 8192)

/-- The schedule unit chooses the set of a context for the next tick (R130), with its transfer terms (R158); an uncorrectable word
that it reads faults the context (01 R30) (notes/assumptions/59.md). -/
def State.chooseSet (s : State) (x : Fin 128) : State :=
  let c := s.fbx.ctx[x]
  let ctrl := s.desc x 0
  if s.ctxEn x && s.fbxOn && bit ctrl 27 && !bit ctrl 30 then
    let sel := half (s.desc x 21) true
    let v := if selKind sel = 1 ∨ selKind sel = 2 ∨ selKind sel = 4 ∨ selKind sel = 6 then (s.source x sel).getD 0 else 0
    match s.table 2 (fld (s.desc x 21) 0 8) with
    | none => s
    | some t =>
      let r := s.curveRead fbxReader t v
      let s := r.1
      if !fIsFinite v then s
      else if r.2.2 then (if c.fault then s else s.ctxFault x 3 [])
      else
        let cv := r.2.1.1
        let nsets := fld (s.desc x 20) 16 3 + 1
        let i := match fVal cv with
          | .inf neg => if neg then 0 else nsets - 1
          | _ => (max 0 (min (fFloor cv) ((nsets : Int) - 1))).toNat
        let k := c.set.toNat
        let h := s.desc x 22
        let move := fpGe cv (fAdd (fNat (k + 1)) h) || fpLt cv (fSub (fNat k) h)
        if move && i != k then
          let q := if c.ran then s.readAll fbxReader (s.histAddrs x k ++ s.histAddrs x i) else (s, false)
          let s := q.1
          if q.2 then s.ctxFault x 3 []
          else
            let oL := fSub (fSum (s.lawTail x k c.w1 c.w2 c.w3 c.v1 c.v2 c.v3)) (fSum (s.lawTail x i c.w1 c.w2 c.w3 c.v1 c.v2 c.v3))
            let oN := fSub (fSum (s.notchTail x k c.e1 c.e2 c.w1 c.w2)) (fSum (s.notchTail x i c.e1 c.e2 c.w1 c.w2))
            let s := s.modCtx x fun c => { c with
              set := BitVec.ofNat 3 i, setChg := true,
              oL := if c.ran then some oL else none, oN := if c.ran && bit ctrl 28 then some oN else none }
            s.dev 0x103 0 [nw x.val, nw k, nw i, cv]
        else s
  else s

/-- The set choice of every context, at the commit (R130). -/
def State.chooseSets (s : State) : State :=
  (fins 128).foldl (fun (s : State) (x : Fin 128) =>
    let s := if s.fbx.ctx[x].setChg then s.modCtx x fun c => { c with setChg := false } else s
    s.chooseSet x) s

/-- What a commit that changed descriptors does to a context (R130, R137, R156, R157); `old` is CTRL and COEF_BASE before. DESIGN CHOICE: the set
in force that fewer sets leave out of range is the one chosen at this very cycle 599 for the next tick (notes/assumptions/31.md). -/
def State.ctxCommitted (s : State) (x : Fin 128) (oldCtrl oldBase : Word) : State :=
  let ctrl := s.desc x 0
  let c := s.fbx.ctx[x]
  let s := if !bit oldCtrl 31 && bit ctrl 31 then s.modCtx x fun c => { c with prime := .enabled, feRun := false, feTicks := 0 }
    else if bit ctrl 31 && c.ran && (bit oldCtrl 29 != bit ctrl 29 || bit oldCtrl 28 != bit ctrl 28) && c.prime == .no then
      s.modCtx x fun c => { c with prime := .lawChanged }
    else s
  let s := if s.tfe x = 0 && s.fbx.ctx[x].feRun then s.modCtx x fun c => { c with feRun := false, feTicks := 0 } else s
  let nsets := fld (s.desc x 20) 16 3 + 1
  let s := if bit ctrl 31 && bit ctrl 27 && !bit ctrl 30 && decide (nsets ≤ fld oldBase 16 3) && decide (nsets ≤ s.fbx.ctx[x].set.toNat) then
      let k := s.fbx.ctx[x].set
      (s.modCtx x fun c => { c with set := BitVec.ofNat 3 (nsets - 1), setChg := true, oL := none, oN := none }).dev 0x103 0
        [nw x.val, k.setWidth 32, nw (nsets - 1), qNaN]
    else s
  s

/-- CTX_REARM: a faulted context whose re-arm stands is re-armed at the commit (R137); one enabled at the same commit primes as
enabled (06 R157, first row) (notes/assumptions/31.md). -/
def State.rearmCtx (s : State) (x : Fin 128) : State :=
  let c := s.fbx.ctx[x]
  match (if s.time.commitDue then none else c.rearm.getLast?) with
  | none => s
  | some ini =>
    let s := s.modCtx x fun c => { c with rearm := [] }
    if c.fault then
      (s.modCtx x fun c => { c.unfault with fresh := false, prime := (if c.prime = .enabled then .enabled else .rearmed), feRun := false, feTicks := 0 }).dev 0x101 2
        [nw x.val, iniWord ini]
    else s

/-- FBCLR or a write of FBX_CLR (R137): a re-arm of a faulted context is requested for this tick's commit. -/
def State.clearCtx (s : State) (ini : Initiator) (x : Fin 128) : State :=
  if s.fbx.ctx[x].fault then s.modCtx x fun c => { c with rearm := c.rearm ++ [ini] } else s

/-- FBX_CST[x] (05), as the context stands; it becomes readable at the next strobe (02 R39). -/
def CtxSt.word (c : CtxSt) : Word :=
  bw c.fault 31 ||| at_ c.cause 28 ||| at_ c.act 26 ||| bw c.clampHi 25 ||| bw c.clampLo 24 ||| bw c.rate 23 ||| at_ c.set 20 |||
  bw c.setChg 19 ||| bw c.feRun 18 ||| at_ c.feTicks 0

/-- Reads of Firebox status registers (05) (notes/assumptions/31.md). -/
def State.fbxRead (s : State) (o : Nat) : Word :=
  let f := s.fbx
  let bitmap (i : Nat) : Word := (fins 32).foldl (fun w b =>
    if bit f.ctx[(idx (32 * i + b.val) : Fin 128)].shown 31 && decide (32 * i + b.val < s.nCtx) then w ||| bw true b.val else w) 0
  if o = 0 then 0x10400000 ||| nw s.nCtx
  else if o = 4 then
    let (used, last) := s.schedUse
    nw used <<< 20 ||| nw last <<< 12 ||| at_ f.rejRule 4 ||| bw f.schedRej 3 ||| bw (f.frozen || f.freezeFrom.isSome) 2 ||| bw f.halted 1 |||
    bw (decide (bitmap 0 ≠ 0 ∨ bitmap 1 ≠ 0 ∨ bitmap 2 ≠ 0 ∨ bitmap 3 ≠ 0)) 0
  else if 0x10 ≤ o ∧ o < 0x20 then bitmap ((o - 0x10) / 4)
  else if 0x100 ≤ o ∧ o < 0x200 then
    let i := f.imp[(idx ((o - 0x100) / 8) : Fin 32)]
    if o % 8 = 0 then i.val else bw i.never 31 ||| at_ i.src 16 ||| at_ i.age 0
  else if 0x400 ≤ o ∧ o < 0x600 then f.ctx[(idx ((o - 0x400) / 4) : Fin 128)].rel[(0 : Fin 8)]
  else if 0x600 ≤ o ∧ o < 0x680 then f.sout[(idx ((o - 0x600) / 32) : Fin 4)][(idx (o % 32 / 4) : Fin 8)]
  else if 0x680 ≤ o ∧ o < 0x700 then f.xhat[(idx ((o - 0x680) / 32) : Fin 4)][(idx (o % 32 / 4) : Fin 8)]
  else if 0x800 ≤ o ∧ o < 0xA00 then f.ctx[(idx ((o - 0x800) / 4) : Fin 128)].shown
  else 0

/-- Writes of FBX_STAT and FBX_CLR. -/
def State.fbxWrite (s : State) (ini : Initiator) (o : Nat) (v : Word) : State :=
  if o = 4 then (if bit v 3 then { s with fbx := { s.fbx with schedRej := false } } else s)
  else if o = 8 then
    (if bit v 31 then
      (if fld v 0 7 < s.nCtx then s.clearCtx ini (idx (fld v 0 7)) else s.flagErr errAbsent 0x10008)
     else s)
  else s

/-- A tick passes for the imports: ages advance (R134). -/
def State.ageImports (s : State) : State :=
  { s with fbx := { s.fbx with imp := s.fbx.imp.map fun (i : ImpSt) => if i.never then i else { i with age := satAdd i.age 1 } } }

/-- Imports received in earlier ticks are latched at cycle 0 (R134): the later of two messages for a pair wins. -/
def State.latchImports (s : State) : State :=
  let s := (s.fbx.impIn.filter fun m => decide (m.1 < s.now)).foldl (fun (s : State) (m : Nat × BitVec 14 × Fin 16 × Word × Word) =>
    let (_, src, j, v0, v1) := m
    let put (s : State) (i : Nat) (v : Word) : State :=
      { s with fbx := { s.fbx with imp := s.fbx.imp.set (idx i : Fin 32) { val := v, never := false, src := src, age := 0 } } }
    put (put s (2 * j.val) v0) (2 * j.val + 1) v1) s
  { s with fbx := { s.fbx with impIn := s.fbx.impIn.filter fun m => decide (s.now ≤ m.1) } }

end Sys2Proof.Machine
end

