-- ==== Sys2Proof/Machine/Dft.lean ====
section
/-! DEFINITION. The Draft manager: frames, pending announcements, trajectories, AC-loss feed-forward, the effective battery mode,
forwarding in a cluster (08 R191-R210). -/

namespace Sys2Proof.Machine

abbrev dftCfg : Nat := 0xD0004
abbrev dftTime : Nat := 0xD0008
abbrev dftWin : Nat := 0xD000C
def State.tRec (s : State) : Nat := max 1 (fld (s.reg dftTime) 16 16)
def State.tHand (s : State) : Nat := max 1 (fld (s.reg dftTime) 0 16)
def State.wPost (s : State) : Nat := max 1 (fld (s.reg dftWin) 16 16)
def State.wPre (s : State) : Nat := fld (s.reg dftWin) 0 16
/-- The standby role halts the Firebox (01 R37); the Draft manager then keeps its table and delivers nothing (R210). -/
def State.standby (s : State) : Bool := s.fbx.halted

def State.modPend (s : State) (i : Fin 64) (f : PendSt → PendSt) : State := { s with dft := { s.dft with pend := upd s.dft.pend i f } }
def State.modRx (s : State) (d : Fin 32) (f : RxSt → RxSt) : State := { s with dft := { s.dft with rx := upd s.dft.rx d f } }

/-- Start of the marker window: max(a − w_pre, s + 1) (R202). -/
def State.wStart (s : State) (p : PendSt) : Nat := max (p.a - s.wPre) (p.s + 1)
/-- The entry waits or is in its window: no ramp-out has begun. -/
def PendSt.waiting (p : PendSt) : Bool := p.valid && p.z.isNone

/-- The ramp-out of an entry begins (R201): phase, start z, length L. -/
def State.rampOut (s : State) (i : Fin 64) (ph : BitVec 2) (z len : Nat) : State :=
  s.modPend i fun p => { p with phase := ph, z := some z, zTick := (s.tickAt z).setWidth 32, zLen := len }

/-- Arrival is recognised in this tick (R202). `how`: 0 marker, 1 measured (notes/assumptions/28.md). -/
def State.arrive (s : State) (i : Fin 64) (how : Nat) : State :=
  let p := s.dft.pend[i]
  let s := if p.shape = 5 then s.modPend i fun p => { p with arrived := true, phase := 1 }
    else s.rampOut i 2 (max (s.now + 1) p.a) s.tHand
  s.dev 0x302 0 ([nw i.val] ++ tickWords s.time.tick ++ [Config.codeOf 0x302 3 how])

/-- A frame is counted and logged as bad (R197). -/
def State.badFrame (s : State) (d : Fin 32) (reason : Nat) : State :=
  let s := s.modRx d fun r =>
    if reason ≤ 4 then { r with bad := satAdd r.bad 1 } else if reason = 5 then { r with unmapped := satAdd r.unmapped 1 } else { r with stray := satAdd r.stray 1 }
  s.dev 0x305 2 [nw d.val, nw reason]

/-- The receiver is present, enabled and on: in SLEEP only where wake bit 5 is set, in SHIP not at all (19 R401). -/
def State.rxOn (s : State) (d : Fin 32) : Bool :=
  d.val < s.nDraft && bit (s.reg (0xD0100 + 4 * d.val)) 31 && (s.awake || (s.pwr.state == 2 && bit (s.reg 0x90) 5))

/-- The search of DRAFT_MAP for (d, src): its entries read in turn up to the first that matches, an uncorrectable word as 0; the
holder (04 R113, R197 check 5, 01 R29, R30; notes/assumptions/59.md). -/
def State.mapSearch (s : State) (d : Fin 32) (src : Byte) : List Nat → State × Option Byte
  | [] => (s, none)
  | a :: as =>
    let r := s.eccRead a (Config.codeOf 0x019 1 7)
    let e : Word := if r.2 then 0 else s.word a
    if fld e 0 8 = d.val ∧ fld e 8 8 = src.toNat ∧ bit e 24 = true then (r.1, some (bits e 16 8)) else r.1.mapSearch d src as

/-- The enabled DRAFT_MAP entry of (d, src): its holder (04 R113, R197 check 5). -/
def State.mapRead (s : State) (d : Fin 32) (src : Byte) : State × Option Byte :=
  match s.table 5 0 with
  | none => (s, none)
  | some t =>
    let r := s.eccRead (t.addr + 16) (Config.codeOf 0x019 1 7)
    let n := if r.2 then 0 else fld (s.word (t.addr + 16)) 0 16
    r.1.mapSearch d src ((List.range n).map fun i => t.addr + 20 + 4 * i)

def State.mapHolder (s : State) (d : Fin 32) (src : Byte) : Option Byte := (s.mapRead d src).2

/-- Sequence state of a map entry. -/
def State.mapSt (s : State) (d : Fin 32) (src : Byte) : DftMapSt :=
  (s.dft.maps.find? fun m => m.d = d && m.src = src).getD { d := d, src := src }
def State.setMap (s : State) (m : DftMapSt) : State :=
  { s with dft := { s.dft with maps := (s.dft.maps.filter fun x => !(x.d = m.d && x.src = m.src)) ++ [m] } }

/-- Entries of a map entry that a cancel may withdraw. -/
def State.cancelable (s : State) (d : Fin 32) (src : Byte) (q : Option (BitVec 4)) : List (Fin 64) :=
  (fins 64).filter fun i => let p := s.dft.pend[i]; p.waiting && p.d = d && p.src = src && (match q with | some q => p.seq = q | none => true)

/-- The liveness window of a map entry has run out, under the hb_to in force (R198). -/
def State.liveOver (s : State) (d : Fin 32) (src : Byte) : Bool :=
  let m := s.mapSt d src
  let hb := fld (s.reg dftCfg) 16 12
  hb != 0 && !m.down && (match m.live with | some t => decide (t + hb ≤ s.now) | none => false)

/-- A map entry whose liveness window has run out is declared down, and its announcements are withdrawn (R198, R203). -/
def State.declareDown (s : State) (d : Fin 32) (src : Byte) : State :=
  if s.liveOver d src then
    let l := s.cancelable d src none
    let s := l.foldl (fun (s : State) (i : Fin 64) => s.rampOut i 3 s.now s.tRec) (s.setMap { s.mapSt d src with live := none, down := true })
    s.devList 0x306 4 [nw d.val, src.setWidth 32] (l.map fun i => [nw i.val])
  else s

/-- Checks 4 to 6 of a frame (R197, R198): `none` if it is discarded. `typeOk` is check 4. A window that has run out by this tick
is closed before the frame restarts it (18 R385). A frame that passes is a wake source (19 R403). -/
def State.rxCheck (s : State) (d : Fin 32) (src : Byte) (seq : BitVec 4) (typeOk : Bool) : State × Option Byte :=
  if !s.rxOn d then (s, none)
  else if !typeOk then (s.badFrame d 4, none)
  else match s.mapRead d src with
    | (s, none) => (s.badFrame d 5, none)
    | (s, some h) =>
      let s := (s.wakeSeen 5).declareDown d src
      let m := { s.mapSt d src with live := some s.now, down := false }
      match m.seq with
      | some q =>
        if q = seq then (s.setMap m, none)
        else
          let s := s.setMap { m with seq := some seq }
          if seq = q + 1 then (s, some h)
          else ((s.modRx d fun r => { r with gap := satAdd r.gap 1 }).dev 0x30A 2 [nw d.val, src.setWidth 32, (q + 1).setWidth 32, seq.setWidth 32], some h)
      | none => (s.setMap { m with seq := some seq }, some h)

/-- ANNOUNCE (R197, R199): an accepted announcement waits for the next tick (notes/assumptions/33.md). -/
def State.announce (s : State) (d : Fin 32) (src : Byte) (shape : BitVec 4) (mag : BitVec 16) (lead : BitVec 12) (sq : BitVec 4) : State :=
  match s.rxCheck d src sq (decide (shape.toNat ≤ 5)) with
  | (s, none) => s
  | (s, some h) =>
    { s with dft := { s.dft with queue := s.dft.queue ++ [{ d := d, src := src, h := h, shape := shape, seq := sq, mag := mag, lead := lead, s := s.now, sTick := s.time.tick }] } }

/-- CANCEL (R203) (notes/assumptions/33.md). -/
def State.draftCancel (s : State) (d : Fin 32) (src : Byte) (lead : BitVec 12) (sq : BitVec 4) : State :=
  match s.rxCheck d src sq true with
  | (s, none) => s
  | (s, some _) =>
    let all := bits lead 4 8 == (0xFF : Byte)
    let s := s.evp 6
    match s.cancelable d src (if all then none else some (bits lead 0 4)) with
    | [] => s.badFrame d 6
    | l => l.foldl (fun (s : State) (i : Fin 64) => (s.rampOut i 3 (s.now + 1) s.tRec).dev 0x304 1 []) s

/-- MARKER (R202) (notes/assumptions/33.md). -/
def State.marker (s : State) (d : Fin 32) (src : Byte) (lead : BitVec 12) (sq : BitVec 4) : State :=
  match s.rxCheck d src sq true with
  | (s, none) => s
  | (s, some _) =>
    let s := s.evp 6
    let hit := if bits lead 4 8 == (0 : Byte) then
        (s.cancelable d src (some (bits lead 0 4))).find? fun i => let p := s.dft.pend[i]; s.wStart p ≤ s.now && s.now < p.a + s.wPost
      else none
    match hit with
    | some i => s.arrive i 0
    | none => s.badFrame d 6

/-- HEARTBEAT (R198) (notes/assumptions/33.md). -/
def State.heartbeat (s : State) (d : Fin 32) (src : Byte) (sq : BitVec 4) : State := (s.rxCheck d src sq true).1

/-- DRAFT_FRAME_INVALID: a raw frame that fails one of checks 1 to 5 (R196, R197). Bit 63 is sent first. -/
def State.frameInvalid (s : State) (d : Fin 32) (codeOk : Bool) (w : BitVec 64) : State :=
  if !s.rxOn d then s
  else if !codeOk then s.badFrame d 1
  else if fld w 56 8 ≠ 0x9B then s.badFrame d 2
  else if crc8 ((leBytes 6 (fld w 8 48)).reverse) ≠ bits w 0 8 then s.badFrame d 3
  else if 3 < fld w 44 4 ∨ (fld w 44 4 = 0 ∧ 5 < fld w 40 4) then s.badFrame d 4
  else match s.mapRead d (bits w 48 8) with
    | (s, none) => s.badFrame d 5
    | (s, some _) => s

/-- The pre-position weight p(t) of an entry (R201). -/
def State.weightP (s : State) (p : PendSt) (t : Nat) : Word :=
  let T := min (fld (s.reg dftCfg) 0 12) (p.a - p.s - 1)
  if p.m > 0 ∧ 0 < T then
    let q := fDiv (fNat (t + T + 1 - p.a)) (fNat T)
    if fpLt q fOne then q else fOne
  else 0

/-- The power trajectory P(t) of an entry before its ramp-out (R201); `rc` is DFT_RXCFG of its input. -/
def PendSt.power (p : PendSt) (rc : Word) (t : Nat) : Word :=
  let m := fInt p.m
  if t < p.a then 0
  else if p.shape = 0 then m
  else if p.shape = 5 then (if (t - p.a) % max 2 (fld rc 16 12) < fld rc 0 12 then m else 0)
  else
    let sl := if p.shape = 1 then 500 else if p.shape = 2 then 2000 else if p.shape = 3 then 8000 else 32000
    let r := fMul (fNat sl) (fNat (t - p.a + 1))
    let v := if fpLt (fAbsW m) r then fAbsW m else r
    if p.m < 0 then fNegW v else v

/-- The factor D(t) of a ramp-out (R201). -/
def rampD (z : Option Nat) (len t : Nat) : Option Word :=
  match z with
  | some z => if z ≤ t then some (if z + len ≤ t then 0 else fDiv (fNat (z + len - t)) (fNat len)) else none
  | none => none

/-- p(t) and P(t) of an entry with its ramp-out (R201). -/
def State.entryVals (s : State) (p : PendSt) (t : Nat) : Word × Word :=
  let w := s.weightP p t
  let P := p.power (s.reg (0xD0100 + 4 * p.d.val)) t
  match rampD p.z p.zLen t with
  | some d => (fMul w d, fMul P d)
  | none => (w, P)

/-- Own sums of the pending table for tick t: P_tot and S (R205). -/
def State.ownSums (s : State) (t : Nat) : Word × Word :=
  s.dft.pend.toList.foldl (fun (a : Word × Word) (p : PendSt) =>
    if p.valid && (match p.z with | some z => decide (t < z + p.zLen) | none => true) then
      let (w, P) := s.entryVals p t
      (fAdd a.1 P, if p.m > 0 then fMac a.2 w (fInt p.m) else a.2)
    else a) (0, 0)

/-- A forwarded value at tick t: held 4 ticks, then ramped out (R208). -/
def State.fwdAt (s : State) (v : Word) (t0 t : Nat) : Word :=
  match rampD (some (t0 + 4)) s.tRec t with
  | some d => fMul v d
  | none => v

def State.cluRole (s : State) : Nat := fld (s.reg 0xD00A0) 30 2

/-- Sums with the forwarded terms of a lead (R208) (notes/assumptions/34.md). -/
def State.sumsAt (s : State) (t : Nat) : Word × Word :=
  let o := s.ownSums t
  if s.cluRole = 2 then
    (fins 4).foldl (fun (a : Word × Word) (p : Fin 4) =>
      let f := s.dft.fwd[p]
      match f.at_ with
      | some t0 => (fAdd a.1 (s.fwdAt f.p t0 t), fAdd a.2 (s.fwdAt f.s t0 t))
      | none => a) o
  else o

/-- V_pp of a sum S (R205): min(DFT_PP_MAX, DFT_PP_GAIN × S), never negative. -/
def State.vppOf (s : State) (sum : Word) : Word :=
  let v := fMul (s.reg 0xD0010) sum
  let m := s.reg 0xD0014
  let w := if fpLt m v then m else v
  if fpGt w 0 then w else 0

/-- The S that a lead's V_pp for two ticks ahead is formed from: its own of that tick, and the members' latest (R208). -/
def State.sumAhead (s : State) : Word :=
  (fins 4).foldl (fun (a : Word) (p : Fin 4) =>
    match s.dft.fwd[p].at_ with
    | some t0 => fAdd a (s.fwdAt s.dft.fwd[p].s t0 s.now)
    | none => a) (s.ownSums (s.now + 2)).2

/-- A lead forms the V_pp of two ticks ahead, once in a tick, from what it knows when it does; not while its Firebox is halted, from whose
resumption it delivers from its own table (R207, R208, R210; notes/assumptions/34.md). -/
def State.formAhead (s : State) : State :=
  if s.cluRole = 2 ∧ s.standby = false ∧ ¬ (s.dft.ahead.any fun a => a.1 = s.now + 2) then
    let v := if bit (s.reg dftCfg) 31 then s.vppOf s.sumAhead else 0
    { s with dft := { s.dft with ahead := (s.dft.ahead.filter fun a => decide (s.now ≤ a.1)) ++ [(s.now + 2, v)] } }
  else s

/-- V_pp in force in this tick (R205, R208). -/
def State.vppNow (s : State) (sum : Word) : Word :=
  match s.cluRole with
  | 1 =>
    match s.dft.vpp with
    | some (v, _, t0) => s.fwdAt v t0 s.now
    | none => s.vppOf sum
  | 2 => ((s.dft.ahead.find? fun a => a.1 = s.now).map (·.2)).getD (s.vppOf sum)
  | _ => s.vppOf sum

/-- The release ramp of an ACFAIL input runs in this tick (R194). -/
def State.ramping (s : State) (i : Fin 2) : Bool :=
  match s.dft.rel[i] with
  | some u => decide (s.now < u + max 1 (fld (s.reg 0xD0080) 0 16))
  | none => false

/-- Contribution of an AC-loss entry (R194): the term rounded once. -/
def State.acffTerm (s : State) (e : Nat) : Word :=
  let ent := s.reg (0xD0060 + 8 * e)
  let val := s.reg (0xD0064 + 8 * e)
  let i : Fin 2 := idx (fld ent 8 1)
  let len := max 1 (fld (s.reg 0xD0080) 0 16)
  if bit s.dft.acf i.val then fTake val
  else match s.dft.rel[i] with
    | some u =>
      if s.now < u + len then
        match fVal val with
        | .num neg m ex => (fRound neg (m * (u + len - s.now) * 2 ^ 40 / len) (ex - 40) (m * (u + len - s.now) * 2 ^ 40 % len != 0)).1
        | _ => fTake val
      else 0
    | none => 0

/-- The Draft values of this tick (R194, R205): P_tot, V_pp, and the TRAJ and ACFF words of every context. -/
def State.dftForm (s : State) : State :=
  let on := bit (s.reg dftCfg) 31 && !s.standby
  let (P, S) := s.sumsAt s.now
  let vpp := if on then s.vppNow S else 0
  let s := { s with dft := { s.dft with trajW := P, ppV := vpp } }
  let trajE := (List.range 4).filter fun e => bit (s.reg (0xD0040 + 8 * e)) 31
  let acffE := (List.range 4).filter fun e => bit (s.reg (0xD0060 + 8 * e)) 31
  (fins 128).foldl (fun (s : State) (x : Fin 128) =>
    let ts := trajE.filter fun e => fld (s.reg (0xD0040 + 8 * e)) 0 7 = x.val
    let as := acffE.filter fun e => fld (s.reg (0xD0060 + 8 * e)) 0 7 = x.val
    let traj := if on then fSum (ts.map fun e => (s.reg (0xD0044 + 8 * e), P)) else 0
    let acff := match as with
      | [] => 0
      | e :: es => es.foldl (fun a e => fAdd a (s.acffTerm e)) (s.acffTerm e)
    let c := s.fbx.ctx[x]
    if c.traj = traj ∧ c.acff = acff then s else s.modCtx x fun c => { c with traj := traj, acff := acff }) s

/-- The Draft values are fixed at cycle 0: what comes about later in the tick does not change them (01 R17, R205). -/
def State.dftValues (s : State) : State := if s.cycle = 0 then s.dftForm else s

/-- The measured step value (R204); `none` turns detection off. -/
def State.stepValue (s : State) : Option Word :=
  let sel : BitVec 16 := bits (s.reg 0xD0018) 0 16
  match selKind sel with
  | 1 => if h : selIdx sel < 96 then some (fMul s.sns.sample[selIdx sel] (s.reg 0xD001C)) else none
  | 2 => some (fMul s.fbx.ctx[(idx (selCtx sel) : Fin 128)].rel[(idx (selOut sel) : Fin 8)] (s.reg 0xD001C))
  | 4 => some (fMul s.fbx.imp[(idx (selIdx sel) : Fin 32)].val (s.reg 0xD001C))
  | _ => none

/-- Reclips at cycle 0 (R200). -/
def State.reclip (s : State) : State :=
  (fins 64).foldl (fun (s : State) (i : Fin 64) =>
    let p := s.dft.pend[i]
    let g := s.grantSnap p.h.toNat
    if p.valid && decide (g < p.m.natAbs) then
      let m : Int := if p.m < 0 then -(g : Int) else g
      (s.modPend i fun p => { p with m := m }).dev 0x308 3 [nw i.val, iw p.m, iw m]
    else s) s

/-- Measured arrivals at cycle 0 (R202, R204). -/
def State.measured (s : State) : State :=
  match s.stepValue with
  | none => s
  | some v =>
    (fins 64).foldl (fun (s : State) (i : Fin 64) =>
      let p := s.dft.pend[i]
      match p.base with
      | some b =>
        let thr := fMul (s.reg 0xD0020) (fInt p.m)
        let d := fSub v b
        if p.waiting && p.phase = 1 && !p.arrived && decide (s.wStart p < s.now) && decide (s.now < p.a + s.wPost) &&
           ((decide (p.m > 0) && fpGe d thr) || (decide (p.m < 0) && fpLe d thr)) then s.arrive i 1 else s
      | none => s) s

/-- A member's latched V_pp values whose named tick has come replace the one in use, the last latched of them last (R208). -/
def State.vppDue (s : State) : State :=
  let due (m : Word × Word) : Bool := decide (0 ≤ sgn (s.time.tick.setWidth 32 - m.2))
  match (s.dft.vppNext.filter due).getLast? with
  | some m => { s with dft := { s.dft with vpp := some (m.1, m.2, (match s.dft.vpp with | some v => max v.2.2 s.now | none => s.now)),
                                           vppNext := s.dft.vppNext.filter fun m => !due m } }
  | none => s

/-- The Draft part of cycle 0 (R200-R205, R208): imports and forwards have been latched. -/
def State.dftTick (s : State) : State := (s.reclip.measured).vppDue.dftValues

/-- DRAFT_ACCEPT (R199): the oldest announcement stamped in an earlier tick is processed (notes/assumptions/33.md). -/
def State.draftAccept (s : State) : State :=
  match s.dft.queue with
  | [] => s
  | q :: qs =>
    if s.now ≤ q.s then s
    else
      let s := { (s.evp 6) with dft := { s.dft with queue := qs } }
      let g := s.grantSnap q.h.toNat
      let mw : Int := 8 * sgn q.mag
      let m : Int := if mw.natAbs ≤ g then mw else if mw < 0 then -(g : Int) else g
      let s := if mw.natAbs ≤ g then s else s.dev 0x301 3 [q.h.setWidth 32, iw mw, nw g]
      let lead := max 1 q.lead.toNat
      let a := q.s + lead
      -- running trains of the same source are withdrawn (step 6)
      let run := (fins 64).filter fun i => let p := s.dft.pend[i]
        p.waiting && p.shape = 5 && p.d = q.d && p.src = q.src && decide (p.a ≤ q.s + 1)
      let free := (fins 64).find? fun i => !s.dft.pend[i].valid
      let s := run.foldl (fun (s : State) (i : Fin 64) => (s.rampOut i 3 a s.tRec).dev 0x304 1 []) s
      let s := if m = 0 then s
        else match free with
          | none => s.dev 0x307 4 []
          | some i =>
            (s.modPend i fun _ => { valid := true, d := q.d, h := q.h, src := q.src, shape := q.shape, seq := q.seq, m := m, s := q.s, a := a,
                                    aTick := (s.tickAt a).setWidth 32 }).dev 0x300 0
              ([nw q.d.val, q.src.setWidth 32, q.h.setWidth 32, q.seq.setWidth 32, iw m] ++ tickWords (s.tickAt a))
      s.dftValues

/-- MARKER_WINDOW_OPEN (R202, R204). -/
def State.windowOpen (s : State) (i : Fin 64) : State :=
  let p := s.dft.pend[i]
  if s.cycle = 0 ∧ (p.waiting && p.phase = 0 && decide (s.wStart p ≤ s.now)) = true then s.modPend i fun p => { p with phase := 1, base := s.stepValue } else s

/-- DRAFT_NOSHOW (R203). -/
def State.noShow (s : State) (i : Fin 64) : State :=
  let p := s.dft.pend[i]
  if p.waiting && !p.arrived && decide (p.a + s.wPost ≤ s.now) then
    let s := (s.evp 6).rampOut i 3 (p.a + s.wPost) s.tRec
    (s.dev 0x303 3 [nw i.val, iw p.m]).dftValues
  else s

/-- DRAFT_ENTRY_FREE (R201): the ramp-out has ended. -/
def State.entryFree (s : State) (i : Fin 64) : State :=
  let p := s.dft.pend[i]
  match p.z with
  | some z => if p.valid && decide (z + p.zLen ≤ s.now) then s.modPend i fun _ => {} else s
  | none => s

/-- DRAFT_SRC_DOWN (R198, R203). -/
def State.srcDown (s : State) (d : Fin 32) (src : Byte) : State := if s.liveOver d src then (s.declareDown d src).dftValues else s

/-- ACFAIL_ASSERT (R194). -/
def State.acfAssert (s : State) (i : Fin 2) : State :=
  if bit s.pins.acfail i.val && !bit s.dft.acf i.val then
    ({ s with dft := { s.dft with acf := s.dft.acf ||| (1 : BitVec 2) <<< i.val, rel := s.dft.rel.set i none } }.dev 0x310 5 [nw i.val]).dftValues
  else s

/-- ACFAIL_CLEAR (R194). -/
def State.acfClear (s : State) (i : Fin 2) : State :=
  if !bit s.pins.acfail i.val && bit s.dft.acf i.val then
    ({ s with dft := { s.dft with acf := s.dft.acf &&& ~~~ ((1 : BitVec 2) <<< i.val), rel := s.dft.rel.set i (some s.now) } }.dev 0x311 3 []).dftValues
  else s

/-- ACFAIL_RAMP_END (R194). -/
def State.acfRampEnd (s : State) (i : Fin 2) : State :=
  match s.dft.rel[i] with
  | some u =>
    if u + max 1 (fld (s.reg 0xD0080) 0 16) ≤ s.now then ({ s with dft := { s.dft with rel := s.dft.rel.set i none } }).dftValues else s
  | none => s

/-- The effective battery mode and its cause (R192): 0 program mode, 1 ACFAIL, 2 armed announcement. -/
def State.batMode (s : State) : BitVec 2 × Nat :=
  let b := s.reg 0xD0084
  let prog : BitVec 2 := if bits b 0 2 = (0 : BitVec 2) then 2 else bits b 0 2
  let acf := (List.range 4).any fun e =>
    let ent := s.reg (0xD0060 + 8 * e)
    bit ent 31 && (bit s.dft.acf (fld ent 8 1) || s.ramping (idx (fld ent 8 1)))
  let armed := s.dft.pend.toList.any fun p => p.valid && decide (p.m > 0) && decide (p.a ≤ s.now + fld b 8 8) &&
    (match p.z with | some z => decide (s.now < z + p.zLen) | none => true)
  if !bit b 31 then (prog, 0)
  else if acf then (3, 1)
  else if armed && !s.standby then (3, 2)
  else (prog, 0)

/-- The effective mode applies at the strobe, and its pair is checked (R192, R193) (notes/assumptions/18.md, 34.md). -/
def State.batStrobe (s : State) : State :=
  let (m, why) := s.batMode
  let old := s.dft.eff
  let s := if m = old then s
    else ({ s with dft := { s.dft with eff := m } }).dev 0x312 2 [old.setWidth 32, m.setWidth 32, Config.codeOf 0x312 2 why]
  let bad := bit (s.reg 0xD0084) 31 && (s.pair (batLimA m.toNat)).isNone
  let s := if bad then s.flagErr errPair (batLimA m.toNat) else s
  let s := if bad then s.dev 0x312 2 [old.setWidth 32, m.setWidth 32, Config.codeOf 0x312 2 3] else s
  { s with dft := { s.dft with batBad := bad } }

/-- Forwarded messages of earlier ticks are latched at cycle 0, the last of each slot (R208) (notes/assumptions/34.md). -/
def State.latchFwd (s : State) : State :=
  let s := (s.dft.fwdIn.filter fun m => decide (m.1 < s.now)).foldl (fun (s : State) (m : Nat × Fin 4 × Word × Word) =>
    { s with dft := { s.dft with fwd := s.dft.fwd.set m.2.1 { p := m.2.2.1, s := m.2.2.2, at_ := some s.now, stale := false } } }) s
  let s : State := match (s.dft.vppIn.filter fun m => decide (m.1 < s.now)).getLast? with
    | some m => { s with dft := { s.dft with vpp := s.dft.vpp.map (fun v => (v.1, v.2.1, s.now)), vppNext := s.dft.vppNext ++ [m.2], vppStale := false } }
    | none => s
  { s with dft := { s.dft with fwdIn := s.dft.fwdIn.filter (fun m => decide (s.now ≤ m.1)), vppIn := s.dft.vppIn.filter fun m => decide (s.now ≤ m.1) } }

/-- DRAFT_FWD_STALE (R208): a forwarded value was not refreshed for 4 ticks (notes/assumptions/34.md). -/
def State.fwdStale (s : State) (p : Fin 4) : State :=
  let f := s.dft.fwd[p]
  let lead := s.cluRole = 2 && !f.stale && (match f.at_ with | some t => decide (t + 4 ≤ s.now) | none => false)
  let memb := s.cluRole = 1 && fld (s.reg 0xD00A0) 24 2 = p.val && !s.dft.vppStale && (match s.dft.vpp with | some (_, _, t) => decide (t + 4 ≤ s.now) | none => false)
  if lead then ({ s with dft := { s.dft with fwd := s.dft.fwd.set p { f with stale := true } } }).dev 0x309 4 [nw p.val]
  else if memb then ({ s with dft := { s.dft with vppStale := true } }).dev 0x309 4 [nw p.val]
  else s

/-- DFT_CLR (08): every DFT_RXST counter clears. -/
def State.dftClear (s : State) : State := { s with dft := { s.dft with rx := Vector.replicate 32 {} } }

/-- Reads of Draft status registers (08). -/
def State.dftRead (s : State) (o : Nat) : Word :=
  let d := s.dft
  if o = 0 then nw s.nDraft
  else if o = 0x24 then
    at_ d.acf 24 ||| bw (s.ramping 0) 22 ||| bw (s.ramping 1) 23 ||| at_ d.eff 20 ||| nw ((d.pend.toList.filter (·.valid)).length)
  else if o = 0x28 then d.trajW
  else if o = 0x2C then d.ppV
  else if o = 0xA4 then (fins 4).foldl (fun w p => w ||| bw d.fwd[p].stale p.val) (bw d.vppStale 4)
  else if 0x180 ≤ o ∧ o < 0x200 then
    let r := d.rx[(idx ((o - 0x180) / 4) : Fin 32)]
    at_ r.bad 24 ||| at_ r.unmapped 16 ||| at_ r.gap 8 ||| at_ r.stray 0
  else if 0x400 ≤ o ∧ o < 0x800 then
    let p := d.pend[(idx ((o - 0x400) / 16) : Fin 64)]
    match o % 16 / 4 with
    | 0 => bw p.valid 31 ||| at_ p.phase 29 ||| nw p.d.val <<< 24 ||| at_ p.h 16 ||| at_ p.src 8 ||| at_ p.shape 4 ||| at_ p.seq 0
    | 1 => iw p.m
    | 2 => p.aTick
    | _ => match p.z with | some z => if z ≤ s.now then p.zTick else 0 | none => 0
  else 0

end Sys2Proof.Machine
end

