-- ==== Sys2Proof/Machine/Thm.lean ====
section
/-! DEFINITION. The thermal unit: measurement, zones, throttling (10_thermal.md). -/

namespace Sys2Proof.Machine

def zA (z : Fin 8) (o : Nat) : Nat := 0x40400 + 0x40 * z.val + o
/-- Members of a zone (R237). -/
def State.zMem (s : State) (z : Fin 8) : BitVec 40 := (s.reg (zA z 4)).setWidth 40 ||| (s.reg (zA z 8)).setWidth 40 <<< 32
def State.modZone (s : State) (z : Fin 8) (f : ZoneSt → ZoneSt) : State := { s with thm := { s.thm with zone := upd s.thm.zone z f } }
/-- The thermal unit is halted in a standby (R245, 01 R37). -/
def State.thmHalted (s : State) : Bool := s.pr.role == .syncing || s.pr.role == .synced

/-- A queue of 8 requests, the measurement in progress counted (R235); status 1 when it is full (03 R79) (notes/assumptions/35.md). -/
def State.thmQueue (s : State) (t : Fin 40) : State × BitVec 4 :=
  if 8 ≤ s.thm.queue.length then (s, 1) else ({ s with thm := { s.thm with queue := s.thm.queue ++ [t] } }, 0)

/-- THM_MEAS_START (R235): the idle converter starts the oldest request at cycle 0 (notes/assumptions/35.md). -/
def State.measStart (s : State) : State :=
  if s.thm.stop.isNone && !s.thm.queue.isEmpty && s.cycle = 0 && !s.thmHalted && s.awake then
    { s with thm := { s.thm with stop := some (s.now + 64) } } else s

/-- THM_ZTEMP[z], the form in which events carry T_z. -/
def ZoneSt.temp (z : ZoneSt) : Word := match z.tz with | some t => bw true 16 ||| t.setWidth 32 | none => z.tzField.setWidth 32

/-- The revocations of a zone at level 2 down to `cap`: the state, and the holders with their amounts (R241). -/
def State.thmRevokes (s : State) (z : Fin 8) (cap : Word) : State × List (List Word) :=
  let grp : BitVec 16 := bits (s.zCfg z) 0 16
  let hs := (fins 256).filter fun h => s.hOpen h && bit grp (s.hGroup h) && decide (cap.toNat < s.emb.hold[h].grant.v.toNat)
  let hs := if s.emb.frozen then [] else hs
  hs.foldl (fun (acc : State × List (List Word)) h =>
    let x := acc.1.emb.hold[h].grant.v - cap
    (acc.1.revoke h x 0 true, acc.2 ++ [[nw h.val, x]])) (s, [])

/-- Entry to level 2 (R241); in a paired active one entry of the mirror stands for a zone's revocations (09 R233)
(notes/assumptions/53.md). -/
def State.thmEnforce (s : State) (z : Fin 8) : State :=
  let cap := s.reg (zA z 0x1C)
  let (s, list) := s.thmRevokes z cap
  let s := if list = [] then s else s.embEntry 4 (BitVec.ofNat 8 z.val) 0 0xFFFFFFFF cap
  s.devList 0x504 5 [nw z.val, cap] list

/-- A zone's level changes (R239, event 0x500); entry to level 2 enforces. -/
def State.setLevel (s : State) (z : Fin 8) (new : BitVec 2) (cause : Nat) : State :=
  let old := s.thm.zone[z].level
  if new = old then s
  else
    let s := (s.modZone z fun k => { k with level := new }).dev 0x500 4
      [nw z.val, old.setWidth 32, new.setWidth 32, s.thm.zone[z].temp, nw cause]
    if new = 2 then s.thmEnforce z else s

/-- The grace window of a zone (R239). -/
def State.zGrace (s : State) (z : Fin 8) : Nat := 1000 * max 1 (fld (s.reg (zA z 0x18)) 0 16)

/-- T_z: the highest latest result among the measured members that are not failed (R238). -/
def State.zoneTemp (s : State) (z : Fin 8) : Option Half :=
  (fins 40).foldl (fun (o : Option Half) (t : Fin 40) =>
    if bit (s.zMem z) t.val && !bit s.thm.zone[z].failed t.val then
      match s.thm.res[t] with
      | some r => some (match o with | some x => if sgn x < sgn r then r else x | none => r)
      | none => o
    else o) none

/-- THM_GRACE_EXPIRE (R239). -/
def State.graceExpire (s : State) (z : Fin 8) : State :=
  match s.thm.zone[z].grace with
  | none => s
  | some e =>
    if e ≤ s.now ∧ s.zOn z ∧ ¬ s.thmHalted then
      let s := s.modZone z fun k => { k with grace := none }
      if s.thm.zone[z].level = 1 then s.setLevel z 2 1 else s
    else s

/-- Evaluation of a result of sensor `t` for zone `z` (R238, R239, R242): a grace that has expired acts first (18 R385)
(notes/assumptions/9.md). -/
def State.evalZone (s : State) (z : Fin 8) (t : Fin 40) (r : Half) : State :=
  let s := s.graceExpire z
  let one : BitVec 40 := (1 : BitVec 40) <<< t.val
  let s := s.modZone z fun k => { k with failed := if r = 0x7FFF then k.failed ||| one else k.failed &&& ~~~ one }
  let tz := s.zoneTemp z
  let s := match tz with
    | some _ => s.modZone z fun k => { k with tz := tz }
    | none => (s.modZone z fun k => { k with tz := none, tzField := (Config.freeWord s.freeCtr).setWidth 16 }).drawn
  let k := s.thm.zone[z]
  if r = 0x7FFF then
    let fl : BitVec 2 := if bits (s.zCfg z) 29 2 = (1 : BitVec 2) then 1 else 2
    let lvl := if k.level.toNat < fl.toNat then fl else k.level
    let s := if k.level = 0 ∧ lvl = 1 then s.modZone z fun k => { k with grace := some (s.now + s.zGrace z) } else s
    s.setLevel z lvl 2
  else if k.failed ≠ 0 then s
  else match tz with
    | none => s
    | some v =>
      let th (o : Nat) : Int := sgn (bits (s.reg (zA z o)) 0 16 : Half)
      if th 0x10 ≤ sgn v then (s.modZone z fun k => { k with grace := none }).setLevel z 2 0
      else if th 0x0C ≤ sgn v ∧ k.level = 0 then (s.modZone z fun k => { k with grace := some (s.now + s.zGrace z) }).setLevel z 1 0
      else if sgn v < th 0x14 ∧ k.level ≠ 0 then (s.modZone z fun k => { k with grace := none }).setLevel z 0 3
      else s

/-- A conversion's result: the mean in 1/128 degree, or 0x7FFF for a broken input or a value out of range (R236). -/
def thmResult (mean : Int) (brk : Bool) : Half := if brk || decide (mean < -8192) || decide (25599 < mean) then 0x7FFF else BitVec.ofInt 16 mean

/-- THM_MEAS_DONE (R235, R239, R242, R243) (notes/assumptions/28.md, 35.md). -/
def State.measDone (s : State) (mean : Int) (brk : Bool) : State :=
  match s.thm.stop, s.thm.queue with
  | some e, t :: q =>
    if e ≤ s.now ∧ ¬ s.thmHalted ∧ s.awake then
      let r := thmResult mean brk
      let one : BitVec 40 := (1 : BitVec 40) <<< t.val
      let zs := (fins 8).filter fun z => s.zOn z && bit (s.zMem z) t.val
      let was := bit s.thm.bad t.val
      let first := r = 0x7FFF && !was && !zs.isEmpty
      let back := r ≠ 0x7FFF && (was || zs.any fun z => bit s.thm.zone[z].failed t.val)
      let s := { (s.evp 2) with thm := { s.thm with
        queue := q, stop := if q.isEmpty then none else some (s.now + 64), res := s.thm.res.set t (some r),
        stamp := s.thm.stamp.set t (s.time.tick.setWidth 32), resAt := s.thm.resAt.set t s.now,
        bad := if first then s.thm.bad ||| one else if r = 0x7FFF then s.thm.bad else s.thm.bad &&& ~~~ one } }
      let s := if first then s.dev 0x501 5 (nw t.val :: zs.map fun z => nw z.val) else s
      let s := if back then s.dev 0x502 3 [nw t.val, r.setWidth 32] else s
      zs.foldl (fun (s : State) z => s.evalZone z t r) s
    else s
  | _, _ => s

/-- Clearing THM_ZCFG[z].en ends the zone's throttling (R237). -/
def State.zoneOff (s : State) (z : Fin 8) : State :=
  let old := s.thm.zone[z].level
  let s := s.modZone z fun _ => {}
  if old = 0 then s else s.dev 0x500 4 [nw z.val, old.setWidth 32, 0, 0, 4]

/-- A write of THM_ZCFG[z] (R237). -/
def State.zcfgWrite (s : State) (z : Fin 8) (v : Word) : State :=
  let was := s.zOn z
  let s := s.setReg (zA z 0) v
  if was && !bit v 31 then s.zoneOff z
  -- a zone that is set again starts at level 0 with no failed member
  else if !was && bit v 31 then s.modZone z fun _ => {}
  else s

/-- A sensor's latest result is 0x7FFF. -/
def State.sensorBad (s : State) (t : Nat) : Bool := if h : t < 40 then s.thm.res[t] == some 0x7FFF else false

/-- A write of THM_ZMEM_LO[z] or THM_ZMEM_HI[z] (R243) (notes/assumptions/35.md). -/
def State.zmemWrite (s : State) (z : Fin 8) (hi : Bool) (v : Word) : State :=
  let old := s.zMem z
  let s := s.setReg (zA z (if hi then 8 else 4)) v
  let new := s.zMem z
  let add := (fins 40).foldl (fun (m : BitVec 40) (t : Fin 40) =>
      if bit new t.val && !bit old t.val && s.sensorBad t.val then m ||| (1 : BitVec 40) <<< t.val else m) 0
  s.modZone z fun k => { k with failed := (k.failed &&& new) ||| add }

/-- A go write of THM_SUBST (R244). -/
def State.subst (s : State) (z : Fin 8) (tNew tOld : BitVec 6) : State :=
  let mem := s.zMem z
  let res (r : BitVec 3) : State := { s with thm := { s.thm with substRes := r } }
  if !bit mem tOld.toNat then res 1
  else if 40 ≤ tNew.toNat then res 4
  else if bit mem tNew.toNat then res 2
  else if s.sensorBad tNew.toNat then res 3
  else
    let new := (mem &&& ~~~ ((1 : BitVec 40) <<< tOld.toNat)) ||| (1 : BitVec 40) <<< tNew.toNat
    let s := ((res 0).setReg (zA z 4) (new.setWidth 32)).setReg (zA z 8) ((new >>> 32).setWidth 32)
    (s.modZone z fun k => { k with failed := k.failed &&& new }).dev 0x503 4 [nw z.val, tOld.setWidth 32, tNew.setWidth 32]

/-- TRES (03 R78). -/
def State.thmResWord (s : State) (t : Fin 40) : Word := match s.thm.res[t] with | some r => bw true 16 ||| r.setWidth 32 | none => 0

/-- Reads of the thermal unit's status registers. -/
def State.thmRead (s : State) (o : Nat) : Word :=
  let k := s.thm
  if o = 0 then nw 8 <<< 8 ||| nw 40
  else if o = 4 then bw k.stop.isSome 31 ||| (if k.stop.isSome then nw ((k.queue.head?.map (·.val)).getD 0) <<< 8 else 0) ||| nw k.queue.length
  else if o = 0x14 then at_ k.substRes 0
  else if 0x100 ≤ o ∧ o < 0x1A0 then s.thmResWord (idx ((o - 0x100) / 4))
  else if 0x200 ≤ o ∧ o < 0x2A0 then k.stamp[(idx ((o - 0x200) / 4) : Fin 40)]
  else if 0x400 ≤ o ∧ o < 0x600 then
    let z := k.zone[(idx ((o - 0x400) / 0x40) : Fin 8)]
    match o % 0x40 with
    | 0x20 => at_ z.level 30 ||| bw z.grace.isSome 29 ||| bw (z.failed != 0) 28 ||| nw (match z.grace with | some e => e - s.now | none => 0)
    | 0x24 => z.failed.setWidth 32
    | 0x28 => (z.failed >>> 32).setWidth 32
    | 0x2C => z.temp
    | _ => 0
  else 0

end Sys2Proof.Machine
end

