-- ==== Sys2Proof/Machine/Bat.lean ====
section
/-! DEFINITION. The battery unit: ash counters, state of charge, cutoff, rest points and learning, ship mode (11_battery.md). -/

namespace Sys2Proof.Machine

def strA (b : Fin 16) (o : Nat) : Nat := 0x51000 + 0x100 * b.val + o
def State.modStr (s : State) (b : Fin 16) (f : StrSt → StrSt) : State := { s with bat := { s.bat with str := upd s.bat.str b f } }
/-- A present and enabled string. -/
def State.strOn (s : State) (b : Fin 16) : Bool := b.val < s.nStrings && bit (s.reg (strA b 0x60)) 31
/-- Evaluation is left to the active controller (R262). -/
def State.batEval (s : State) : Bool := !(s.pr.role == .syncing || s.pr.role == .synced)

def Q64.of (v : BitVec 64) : Q64 := { v := v, c := ~~~ v }
def Q64.ok (q : Q64) : Bool := q.c == ~~~ q.v

/-- The charge of the tick before enters the accumulator of one string (R246, R247). -/
def State.ashUpdate (s : State) (b : Fin 16) (count : BitVec 24) : State :=
  if !s.strOn b then s.modStr b fun k => { k with chg := 0 }
  else
    let k := s.bat.str[b]
    let tot : Int := (k.residue : Int) + (sgn count - sgn (s.reg (strA b 0x68))) * ((s.reg (strA b 0x64)).toNat : Int)
    let whole : BitVec 64 := BitVec.ofInt 64 (tot / 2 ^ 32)
    let res := (tot % 2 ^ 32).toNat
    if k.qBad then s.modStr b fun k => { k with residue := res, chg := whole, since := k.since + whole }
    else if !k.q.ok then
      (s.modStr b fun k => { k with residue := res, chg := whole, qBad := true, since := 0, soc := qNaN }).dev 0x600 7
        ([nw b.val] ++ w64 k.q.v ++ w64 k.q.c)
    else s.modStr b fun k => { k with residue := res, chg := whole, q := Q64.of (k.q.v + whole) }

/-- The ash counters at cycle 0 (R246). -/
def State.ashTick (s : State) (counts : List (BitVec 24)) : State :=
  (fins 16).foldl (fun (s : State) b => s.ashUpdate b (counts.getD b.val 0)) s

/-- CHGDET at cycle 0 (R261). -/
def State.chgTick (s : State) (on : Bool) : State :=
  { s with bat := { s.bat with chg := on, chgRun := if on then s.bat.chgRun + 1 else 0 } }

/-- BAT_QSET_APPLY (R248) (notes/assumptions/36.md). -/
def State.qsetApply (s : State) (b : Fin 16) : State :=
  let k := s.bat.str[b]
  match k.qsetDue with
  | none => s
  | some (v, t) =>
    if s.cycle = 0 ∧ t < s.now then
      let old := if k.qBad then k.q.v else k.q.v - k.chg
      (s.modStr b fun k => { k with q := Q64.of (v + k.chg), qsetDue := none, qBad := false, since := 0, hasRef := false }).dev 0x601 3
        ([nw b.val] ++ w64 old ++ w64 v)
    else s

/-- A completed write of a string's 64-bit pair (R248): 0 BAT_QSET, 1 BAT_QEMPTY, 2 BAT_LCAP. -/
def State.strPair (s : State) (b : Fin 16) (which : Nat) (v : BitVec 64) : State :=
  s.modStr b fun k => if which = 0 then { k with qset := v, qsetDue := some (v, s.now) } else if which = 1 then { k with empty := v } else { k with cap := v }

/-- A signed 64-bit value as FP32, rounded once. -/
def f64 (v : BitVec 64) : Word := fInt v.toInt
/-- The magnitude of a signed 64-bit difference as FP32. -/
def fDist (a b : BitVec 64) : Word := fNat (a - b).toInt.natAbs

/-- The state of charge at a snapshot (R250 step 2), and the below-anchor state (R252), with the zero point and the capacity of cycle
0 (notes/assumptions/9.md, 36.md). -/
def State.batSoc (s : State) (b : Fin 16) : State :=
  let k := s.bat.str[b]
  let d := k.snap.v - k.ev.empty
  let q := fDiv (f64 d) (fNat k.ev.cap.toNat)
  let (s, soc) := if fIsNaN q then (s.drawn, Config.freeWord s.freeCtr)
    else (s, if fpLt q 0 then 0 else if fpGt q fOne then fOne else if fpEq q 0 then 0 else q)
  if k.cutoff then s.modStr b fun k => { k with soc := 0 }
  else if d.toInt < 0 then
    let first := !k.below
    let s := s.modStr b fun k => { k with soc := 0, below := true, belowQ := k.ev.empty - k.snap.v }
    if first then s.dev 0x603 4 [] else s
  else s.modStr b fun k => { k with soc := soc }

/-- A cutoff is released by returned charge (R254), counted from the zero point of cycle 0 (R250). -/
def State.cutRelease (s : State) (b : Fin 16) : State :=
  let k := s.bat.str[b]
  if k.cutoff && decide ((k.ev.qrel.toNat : Int) ≤ (k.snap.v - k.ev.empty).toInt) then
    (s.modStr b fun k => { k with cutoff := false }).dev 0x605 2 []
  else s

/-- A string at a slow-frame boundary: its snapshot (R28), and what its evaluation finds with the values of cycle 0 (R250, R251,
R255) (notes/assumptions/36.md). -/
def State.batString (s : State) (b : Fin 16) : State :=
  if !s.strOn b then s.modStr b fun k => { k with snap := k.q, prev := some k.q.v, prevQ := k.snap.v, sum := 0, nsum := 0, fullRun := 0 }
  else
    let k0 := s.bat.str[b]
    let mean := if k0.nsum = 0 then 0 else fDiv k0.sum (fNat k0.nsum)
    let s := s.modStr b fun k => { k with snap := k.q, prevQ := k.snap.v, sum := 0, nsum := 0, mean := mean }
    if !s.batEval || !bit (s.reg 0x50004) 31 then s.modStr b fun k => { k with prev := some k.snap.v, fullRun := 0, fullDue := false, restDue := false }
    else
      let k := s.bat.str[b]
      let moved := k.prev.map fun p => fDist k.snap.v p
      let isFull := (match moved with | some m => fpLe m (fMul (s.reg (strA b 0x78)) 0x44800000) | none => false) &&
        decide (0 < k0.nsum) && fpGe mean (s.reg (strA b 0x70))
      let isRest := match moved with | some m => fpLt m (fMul (s.reg (strA b 0x74)) 0x44800000) | none => false
      let run := if isFull then k.fullRun + 1 else 0
      let anchor := decide (max 1 (fld (s.reg (strA b 0x60)) 8 8) ≤ run) && !k.qBad && !s.bat.ship
      let cnt := if isRest then satAdd k.rcnt 1 else 0
      let rest := isRest && decide (cnt.toNat = max 1 (fld (s.reg (strA b 0x7C)) 0 24)) && decide (k.rcnt ≠ cnt) && !k.qBad && !s.bat.ship
      s.modStr b fun k => { k with prev := some k.snap.v, fullRun := if anchor then 0 else run, fullDue := anchor, restDue := rest, evalDue := true,
                                   ev := { empty := k.empty, cap := k.cap, scfg := s.reg (strA b 0x60), trest := s.reg (strA b 0x7C),
                                           twin := s.reg (strA b 0x80), qrel := s.reg (strA b 0x84), rcnt := cnt } }

/-- The battery part of a slow-frame boundary: all 16 accumulators are latched (R28, R250). -/
def State.batBoundary (s : State) : State :=
  let s := (fins 16).foldl State.batString s
  { s with bat := { s.bat with snapAt := s.time.tick.setWidth 32, prevAt := s.bat.snapAt } }

/-- The results of a string's evaluation become visible (R250). What a full anchor or a rest point precedes is left to its row
(notes/assumptions/36.md). -/
def State.batShow (s : State) (b : Fin 16) : State :=
  let k := s.bat.str[b]
  if !k.evalDue then s
  else
    let s := s.modStr b fun k => { k with evalDue := false, rcnt := k.ev.rcnt }
    if k.qBad then s.modStr b fun k => { k with soc := qNaN, fullDue := false, restDue := false }
    else if k.fullDue then s
    else
      let s := s.batSoc b
      if k.restDue then s else s.cutRelease b

/-- The evaluations at cycle 240 of a boundary tick, in ascending order (R250). -/
def State.batResults (s : State) : State := (fins 16).foldl State.batShow s

/-- Every effective code follows a change of the cut-off strings (R253). -/
def State.recut (old s : State) : State :=
  if (old.bat.str.map (·.cutoff)) = (s.bat.str.map (·.cutoff)) then s else s.loadEff

/-- BAT_FULL_ANCHOR (R251), from cycle 240 of the boundary tick on (R250). -/
def State.fullAnchor (s : State) (b : Fin 16) : State :=
  let k := s.bat.str[b]
  if k.fullDue && !k.evalDue then
    let old := s
    let s := s.modStr b fun k => { k with fullDue := false, empty := k.snap.v - k.ev.cap, soc := fOne, lastFull := true, anchored := true,
                                          below := false, belowQ := 0, susHigh := false }
    let s := s.dev 0x602 2 ([nw b.val] ++ w64 k.snap.v ++ w64 (k.snap.v - k.ev.cap))
    if k.restDue then s else old.recut (s.cutRelease b)
  else s

/-- One sample of a present string's voltage channel: it enters the sum of the slow frame, and, for an enabled string, the count of
consecutive ticks below the empty voltage (R251, R253) (notes/assumptions/36.md). -/
def State.batSample (s : State) (b : Fin 16) (v : Word) : State :=
  if s.nStrings ≤ b.val then s
  else
    let q := max 1 (fld (s.reg 0x50004) 0 16)
    s.modStr b fun k =>
      let low := s.strOn b && fpLt v (s.reg (strA b 0x6C)) && s.batEval && !k.qBad
      let run := if low then (if k.vAt + 1 = s.now then k.vRun else 0) + 1 else 0
      { k with sum := if k.nsum = 0 then v else fAdd k.sum v, nsum := k.nsum + 1, vRun := run, vAt := s.now, cutDue := decide (run = q) }

/-- BAT_CUTOFF (R253): at cycle 240, after the tick's evaluation. -/
def State.cutOff (s : State) (b : Fin 16) : State :=
  let k := s.bat.str[b]
  if k.cutDue && !k.qBad && !k.evalDue && !s.time.strobeDue then
    let old := s
    let high := !k.below && decide (0 < (k.q.v - k.empty).toInt)
    let s := s.modStr b fun k => { k with cutDue := false, cutoff := true, soc := 0, empty := k.q.v, susLow := k.susLow || k.below,
                                          susHigh := k.susHigh || high, below := false, anchored := true, lastFull := false }
    old.recut <| s.dev 0x604 5 ([nw b.val] ++ w64 k.q.v ++ w64 (k.q.v - k.empty) ++ w64 k.belowQ ++ [Config.codeOf 0x604 4 (k.below.toNat + 2 * high.toNat)])
  else s

/-- Strings that are cut off (BAT_CUTMAP). -/
def State.cutMap (s : State) : BitVec 16 :=
  (fins 16).foldl (fun (m : BitVec 16) (b : Fin 16) => if s.bat.str[b].cutoff then m ||| (1 : BitVec 16) <<< b.val else m) 0

/-- Validity of a rest point: 0 valid, else the first of R255's conditions that fails. -/
def State.restReason (s : State) (b : Fin 16) (sigma : Option Word) : Nat :=
  let e := s.bat.str[b].ev
  let t := fld e.scfg 24 6
  let win := e.twin
  let trest := max 1 (fld e.trest 0 24)
  let res : Option (Half × Nat) := if h : t < 40 then s.thm.res[t].map fun r => (r, s.thm.resAt[t]) else none
  match res with
  | none => 1
  | some (r, at0) =>
    if r = 0x7FFF then 1
    else if at0 < s.now - 1024 * trest ∨ s.now ≤ at0 then 2
    else if sgn r < sgn (bits win 0 16 : Half) ∨ sgn (bits win 16 16 : Half) ≤ sgn r then 3
    else match sigma with
      | none => 4
      | some v => if fIsFinite v then 0 else 5

/-- Half of a sum, ties to even (R256). -/
def halfEven (n : Nat) : Nat := if n % 4 = 3 then n / 2 + 1 else n / 2

/-- An acceptance (R257) against the reference and the new rest point. -/
def State.capAccept (s : State) (b : Fin 16) (new : BitVec 64) (sigma : Word) : State :=
  let k := s.bat.str[b]
  (s.modStr b fun k => { k with empty := if k.lastFull then k.empty + (k.ev.cap - new) else k.empty, cap := new, learned := true, wbPend := true,
                                held := false, susLow := false, susHigh := false }).dev 0x607 3
    ([nw b.val] ++ w64 k.ev.cap ++ w64 new ++ [k.refSigma] ++ w64 k.refQ ++ [k.refTick, sigma] ++ w64 k.snap.v ++ [s.time.tick.setWidth 32])

/-- A valid rest point (R256) (notes/assumptions/36.md). -/
def State.learn (s : State) (b : Fin 16) (sigma : Word) : State :=
  let k := s.bat.str[b]
  let setRef (s : State) : State := s.modStr b fun k => { k with hasRef := true, refSigma := sigma, refQ := k.snap.v, refTick := s.time.tick.setWidth 32 }
  if !k.hasRef then setRef s
  else
    let ds := fAbsW (fSub sigma k.refSigma)
    if fpLt ds 0x3ECCCCCD then
      (if fpGt (fAbsW (fSub sigma 0x3F000000)) (fAbsW (fSub k.refSigma 0x3F000000)) then setRef s else s)
    else
      let c' := (fNearest (fDiv (fDist k.snap.v k.refQ) ds)).toNat
      let c := k.ev.cap.toNat
      let h := k.heldC.toNat
      let dist (x y : Nat) : Word := fNat ((x : Int) - y).natAbs
      let s :=
        if !k.learned || fpLe (dist c' c) (fMul 0x3E800000 (fNat c)) then s.capAccept b (BitVec.ofNat 64 c') sigma
        else if k.held && fpLe (dist c' h) (fMul 0x3DCCCCCD (fNat h)) then s.capAccept b (BitVec.ofNat 64 (halfEven (c' + h))) sigma
        else (s.modStr b fun k => { k with heldC := BitVec.ofNat 64 c', held := true }).dev 0x608 4 ([nw b.val] ++ w64 k.ev.cap ++ w64 (BitVec.ofNat 64 c'))
      setRef s

/-- BAT_REST (R255-R257), then the release of a cutoff (R250 step 5) (notes/assumptions/36.md). -/
def State.restPoint (s : State) (b : Fin 16) : State :=
  let k := s.bat.str[b]
  if k.restDue && !k.fullDue && !k.evalDue then
    let old := s
    let look := (s.table 2 (fld k.ev.scfg 16 8)).map fun t => s.curveRead (Config.codeOf 0x019 1 9) t k.mean
    let sigma := look.map (·.2.1.1)
    let s := (look.map (·.1)).getD s
    let why := s.restReason b sigma
    let s := (s.modStr b fun k => { k with restDue := false }).dev 0x606 1
      ([nw b.val, sigma.getD (Config.codeOf 0x606 1 0)] ++ w64 k.snap.v ++ [bw (why == 0) 0, Config.codeOf 0x606 4 why])
    let s := match sigma with
      | some v => if why = 0 then s.learn b v else s
      | none => s
    old.recut (s.cutRelease b)
  else s

/-- BAT_LCMD[s].reset (R260). -/
def State.learnReset (s : State) (b : Fin 16) : State :=
  (s.modStr b fun k => { k with hasRef := false, held := false, learned := false, susLow := false, susHigh := false }).dev 0x609 3 []

/-- BAT_LCMD[s].wb_ack (R258). -/
def State.wbAck (s : State) (b : Fin 16) : State := s.modStr b fun k => { k with wbPend := false }

/-! ### Ship mode (R261) -/

/-- The battery rail is in OFF, or there is none. -/
def State.batRailOff (s : State) : Bool :=
  let d := s.reg 0xD0084
  !bit d 31 || s.phs.rail[(idx (fld d 16 4) : Fin 16)].state == .off

/-- A write with enter = 1 has its effect only with the key, and with the battery rail in OFF. -/
def State.shipOk (s : State) (key : Byte) : Bool := key == 0xA5 && s.batRailOff

def State.shipEnter (s : State) : State := { s with bat := { s.bat with enterReq := some s.now } }

def State.shipRelease (s : State) : State := { s with bat := { s.bat with releaseReq := some s.now } }

/-- SHIP_MODE_SET: at cycle 0 of the next tick. -/
def State.shipSet (s : State) : State :=
  match s.bat.enterReq with
  | some t => if t < s.now ∧ s.cycle = 0 then ({ s with bat := { s.bat with enterReq := none, ship := true } }).dev 0x60B 4 [] else s
  | none => s

/-- ship clears; in power state SHIP a system reset follows in the next tick (19 R404) (notes/assumptions/12.md). -/
def State.shipClear (s : State) (why : Nat) : State :=
  ({ s with bat := { s.bat with ship := false, releaseReq := none, wakeReset := if s.pwr.state = 3 then some (s.now + 1) else s.bat.wakeReset } }).dev
    0x60C 4 [Config.codeOf 0x60C 0 why]

/-- SHIP_MODE_CLEAR. -/
def State.shipModeClear (s : State) : State :=
  match s.bat.releaseReq with
  | some t => if t < s.now ∧ s.cycle = 0 then s.shipClear 1 else s
  | none => s

/-- CHGDET_WAKE: the qualifying sample of CHGDET. -/
def State.chgWake (s : State) : State :=
  if s.bat.ship ∧ s.bat.chgRun = 1000 * max 1 (fld (s.reg 0x50008) 8 8) then s.shipClear 0 else s

/-- SHIP_N as driven: asserted while ship is set, by the active controller, from the tick after a handover (17 R363); `none`: high-impedance,
as while no string is fitted (20 R406). From a reset until the PLL locks it is what the keeper holds, the level driven last before a system
reset, and after power-on nothing (19 R388). -/
def State.shipN (s : State) : Option Bool :=
  if s.nStrings = 0 then none
  else if !s.clk.pllLock then s.bat.keeper
  else match s.pr.role with
  | .syncing | .synced | .failed => none
  | .active => if s.yetHalted then none else some s.bat.ship
  | .unpaired | .witness => some s.bat.ship

/-! ### Registers -/

/-- BAT_STR_STAT[s]. -/
def StrSt.stat (k : StrSt) : Word :=
  bw k.qBad 31 ||| bw k.cutoff 30 ||| bw k.below 29 ||| bw k.learned 28 ||| bw k.susLow 27 ||| bw k.susHigh 26 ||| bw k.held 25 ||| bw k.wbPend 24 |||
  bw k.hasRef 23 ||| bw k.lastFull 22 ||| bw k.anchored 21

/-- Word `i` of a 64-bit pair in memory layout (03 R74). -/
def Q64.word (q : Q64) (i : Nat) : Word :=
  match i % 4 with
  | 0 => q.v.setWidth 32 | 1 => (q.v >>> 32).setWidth 32 | 2 => q.c.setWidth 32 | _ => (q.c >>> 32).setWidth 32

def w64at (v : BitVec 64) (i : Nat) : Word := if i % 2 = 0 then v.setWidth 32 else (v >>> 32).setWidth 32

/-- Reads of the battery unit's status registers. -/
def State.batRead (s : State) (o : Nat) : Word :=
  if o = 0 then nw s.nStrings
  else if o = 8 then (s.reg 0x50008) ||| bw s.bat.chg 1 ||| bw s.bat.ship 0
  else if o = 0x0C then s.cutMap.setWidth 32
  else
    let k := s.bat.str[(idx ((o - 0x1000) / 0x100) : Fin 16)]
    let w := o % 0x100
    let i := w / 4
    if w < 0x10 then k.q.word i
    else if w < 0x20 then k.snap.word i
    else if w < 0x30 then (Q64.of k.qset).word i
    else if w < 0x40 then (Q64.of k.empty).word i
    else if w < 0x50 then (Q64.of k.cap).word i
    else if w < 0x58 then w64at k.since i
    else if w < 0x60 then w64at k.belowQ i
    else if w = 0x88 then k.soc
    else if w = 0x8C then k.stat
    else if w = 0x90 then k.refSigma
    else if w = 0x94 then w64at k.refQ 0
    else if w = 0x98 then w64at k.refQ 1
    else if w = 0x9C then k.refTick
    else if w = 0xA0 ∨ w = 0xA4 then w64at k.heldC i
    else if w = 0xAC then at_ k.rcnt 0
    else 0

/-- Writes of BAT_SHIP and BAT_LCMD (`v` holds only the bytes written). -/
def State.batWrite (s : State) (o : Nat) (v lane : Word) : State :=
  if o = 8 then
    if bit v 31 && !s.shipOk (bits v 16 8) then s.flagErr errLocked 0x50008
    else
      let s := if bit lane 8 then s.setReg 0x50008 (v &&& 0x0000FF00) else s
      let s := if bit v 31 then s.shipEnter else s
      if bit v 30 then s.shipRelease else s
  else if o % 0x100 = 0xA8 ∧ 0x1000 ≤ o then
    let b : Fin 16 := idx ((o - 0x1000) / 0x100)
    let s := if bit v 31 then s.learnReset b else s
    if bit v 30 then s.wbAck b else s
  else s

end Sys2Proof.Machine
end

