-- ==== Sys2Proof/Machine/Nvm.lean ====
section
/-! DEFINITION. The non-volatile store: reads, the hold-up gate, the write queue, partitions, A/B records, the scrubber
(13_mram.md). -/

namespace Sys2Proof.Machine

abbrev mramBase : Nat := 0x10000000
/-- First byte offset of the system area (R279). -/
abbrev sysArea : Nat := 0x1FFC00

def isHost : Initiator → Bool
  | .spi | .twi0 => true
  | _ => false

/-! ### The hold-up gate (R286-R288) -/

/-- Groups of 1 µs that a write costs (R284, R297). -/
def NvWrite.groups (w : NvWrite) : Nat :=
  (match w.src with | .scrub | .consumed | .journalClear _ => 3 | _ => 10) + w.abFirst.isSome.toNat + w.abLast.isSome.toNat

/-- Groups that remain in the write in progress. -/
def State.nvLeft (s : State) : Nat := match s.nvm.cur with | some w => w.groups - (s.now - s.nvm.curAt) | none => 0

/-- g_Q: groups that remain in every queued and in-progress write (R287). -/
def State.gQ (s : State) : Nat := s.nvLeft + 10 * s.log.bb.queue.length + (s.nvm.queue.map (·.groups)).foldl (· + ·) 0

/-- N_g and the capacitor voltage of a pin code (R286). -/
def State.holdup (s : State) (code : BitVec 12) : Nat × Word :=
  let cap := s.reg 0x80010
  let vmin := s.reg 0x80014
  let load := s.reg 0x80018
  let micro : Word := 0x358637BD
  let v := fMul (s.reg 0x8001C) (fDiv (fNat (code.toNat * 9)) (fNat 20480))
  let c := fMul cap micro
  let hc := fMul 0x3F000000 c
  let vv := fMul v v
  let mm := fMul vmin vmin
  let d := fSub vv mm
  let e := fMul hc d
  let l := fMul load micro
  let q := fDiv e l
  let n := if [cap, vmin, load, v, c, hc, vv, mm, d, e, l, q].all fIsFinite && fpGt e 0 then (max 0 (fFloor q)).toNat else 0
  (min n 65535, v)

/-- The store's part of cycle 0 (R286). -/
def State.nvmTick (s : State) : State :=
  let (n, v) := s.holdup s.pins.holdup
  { s with nvm := { s.nvm with ng := n, volt := v } }

/-- A refusal of the gate is logged when the decision before was an acceptance (R287). -/
def State.gateNo (s : State) (gW : Nat) : State :=
  if s.nvm.gateOk then ({ s with nvm := { s.nvm with gateOk := false } }).dev 0x703 4 [nw s.nvm.ng, nw s.gQ, nw gW, 0] else s

def State.gateYes (s : State) : State := { s with nvm := { s.nvm with gateOk := true } }

/-- The condition of R287 on a write of `gW` groups. -/
def State.gateOpen (s : State) (gW : Nat) : Bool := !s.pins.pfail && decide (s.gQ + gW ≤ s.nvm.ng)

/-- Queued or in progress (NVM_STAT.q_pages). -/
def State.nvPages (s : State) : Nat := s.nvm.queue.length + s.nvm.cur.isSome.toNat

/-! ### Partitions (R291-R295) -/

/-- The enabled partition that a page lies in. -/
def State.partOf (s : State) (page : Nat) : Option (Fin 8) :=
  (fins 8).find? fun i => let p := s.nvm.part[i]; p.en && decide (p.first.toNat ≤ page) && decide (page < p.first.toNat + p.count.toNat)

/-- A read by `ini` of a byte offset is denied (R281, R292). -/
def State.nvDenied (s : State) (ini : Initiator) (off : Nat) : Bool :=
  sysArea ≤ off || (match s.partOf (off / 64) with
    | some i => let p := s.nvm.part[i]; p.rpw && !(if isHost ini then p.unlHostR else p.unlStkR)
    | none => false)

/-- A write by `ini` to a page is refused with status 3 (R285, R292). -/
def State.nvLocked (s : State) (ini : Initiator) (page : Nat) : Bool :=
  32752 ≤ page || (match s.partOf page with
    | some i => let p := s.nvm.part[i]; p.wpw && !(if isHost ini then p.unlHostW else p.unlStkW)
    | none => false)

/-! ### Reading (R280-R282) -/

/-- First data group of a write in time: after the journal group and the marker (R284, R297). -/
def NvWrite.lead (w : NvWrite) : Nat := 1 + w.abFirst.isSome.toNat

/-- The group of an offset that a read finds new, because its write has begun (R280) (notes/assumptions/39.md). -/
def State.nvNew (s : State) (off : Nat) : Option NvWrite :=
  s.nvm.cur.filter fun w => decide (w.off ≤ off ∧ off < w.off + w.data.length ∧
    600 * (s.nvm.curAt + w.lead + (off - w.off) / 8) + s.nvm.curCycle ≤ 600 * s.now + s.cycle)

/-- The byte at an offset as a read sees it. -/
def State.nvByte (s : State) (off : Nat) : Byte :=
  match s.nvNew off with
  | some w => w.data.getD (off - w.off) 0
  | none => s.byte (mramBase + off)

/-- The error mark of an offset's group as a read finds it: a group written anew has none (R280, R281). -/
def State.nvMark (s : State) (off : Nat) : Option EccErr :=
  if (s.nvNew off).isSome then none else sget s.ecc (mramBase + off - off % 8)

/-- An uncorrectable or denied read is recorded (R281). -/
def State.nvErr (s : State) (den : Bool) (a : Nat) : State :=
  let n := s.nvm
  { s with nvm := { n with errAddr := if n.uncorr || n.denied then n.errAddr else nw a, uncorr := n.uncorr || !den, denied := n.denied || den } }

/-- NVM_LAST of an initiator (R282). -/
def State.nvLast (s : State) (ini : Initiator) (c : BitVec 2) : State :=
  match ini with
  | .F => s
  | .B => { s with nvm := { s.nvm with last := s.nvm.last.set 0 c } }
  | .spi => { s with nvm := { s.nvm with last := s.nvm.last.set 1 c } }
  | .twi0 => { s with nvm := { s.nvm with last := s.nvm.last.set 2 c } }

/-- A corrected group is counted (R281). -/
def State.nvCorr (s : State) (a : Nat) : State :=
  ({ s with nvm := { s.nvm with corrCnt := satAdd s.nvm.corrCnt 1 } }).dev 0x700 1 [nw a]

/-- A read of `n` bytes through the window at bus address `a` (R280-R282); they lie in one group (notes/assumptions/59.md). -/
def State.nvRead (s : State) (ini : Initiator) (a n : Nat) : State × Word :=
  let off := a - mramBase
  let g := a - a % 8
  if s.nvDenied ini off then ((s.nvErr true g).nvLast ini 3, 0)
  else if !s.awake then (s.drawn, Config.freeWord s.freeCtr)
  else match s.nvMark off with
    | some .uncorr => (((s.nvErr false g).nvLast ini 2).dev 0x702 6 [nw g, iniWord ini], 0)
    | e =>
      let v := nw (leNat ((List.range n).map fun i => s.nvByte (off + i)))
      match e with
      | some .corr => ((s.nvCorr g).nvLast ini 1, v)
      | _ => (s.nvLast ini 0, v)

/-! ### Writing (R284, R285, R287, R297) -/

/-- Pages of a copy of a registered record. -/
def AbSt.pages (r : AbSt) : Nat := r.n.toNat + 1

/-- The registered copy whose first, or last, page is `page`: record and copy (false A, true B). -/
def State.abAt (s : State) (page : Nat) (isLast : Bool) : Option (Fin 16 × Bool) :=
  (fins 16).findSome? fun i =>
    let r := s.nvm.ab[i]
    let at0 (p : BitVec 15) : Nat := p.toNat + (if isLast then r.pages - 1 else 0)
    if !r.en then none else if at0 r.pageA = page then some (i, false) else if at0 r.pageB = page then some (i, true) else none

/-- A page write is offered by `ini` (R285, R287, R292): the state and the status of NVWR (notes/assumptions/39.md). -/
def State.nvOffer (s : State) (ini : Initiator) (src : NvSrc) (page : Nat) (data : List Byte) : State × BitVec 3 :=
  if s.nvLocked ini page then (s, 3)
  else if 16 ≤ s.nvPages then (s, 2)
  else
    let first := s.abAt page false
    let gW := match first with | some (i, _) => 10 * s.nvm.ab[i].pages + 2 | none => 10
    if s.gateOpen gW then
      ({ s.gateYes with nvm := { s.gateYes.nvm with queue := s.nvm.queue ++
          [{ src := src, off := 64 * page, data := data, abFirst := first, abLast := (s.abAt page true).map (·.1) }] } }, 0)
    else (s.gateNo gW, 1)

/-- NVM_CMD (R285). -/
def State.nvCmd (s : State) (ini : Initiator) (page : Nat) : State :=
  let data := (List.range 16).flatMap fun w => wBytes (s.reg (0x80040 + 4 * w))
  let (s, r) := s.nvOffer ini (if ini = .spi then .spi else if ini = .twi0 then .twi0 else if ini = .B then .thB else .thF) page data
  { s with nvm := { s.nvm with cmdRes := r } }

/-- The writes that wait: a black-box commit's pages go ahead of every other (12 R275). -/
def State.nvWaiting (s : State) : List NvWrite :=
  s.log.bb.queue.zipIdx.map (fun p => { src := .blackBox p.2 (p.2 + 1 == s.log.bb.queue.length), off := 64 * p.1.1, data := p.1.2 }) ++ s.nvm.queue

/-- PAGE_WRITE_START (R284, R288): none in SLEEP or SHIP, where the array is off (19 R401), and none while a reset waits (19 R391). -/
def State.pageStart (s : State) : State :=
  match s.nvm.cur, s.nvWaiting with
  | none, w :: q =>
    if !s.awake || s.boot.rstPend.isSome then s
    else if w.groups ≤ s.nvm.ng then
      let page : BitVec 15 := BitVec.ofNat 15 (w.off / 64)
      let journal := match w.abFirst with
        | some (i, c) => s.nvm.journal.set i (some { copyB := c, tick := s.time.tick })
        | none => s.nvm.journal
      { s with log := { s.log with bb := { s.log.bb with queue := s.log.bb.queue.drop 1 } }
               nvm := { s.nvm with cur := some w, queue := if s.log.bb.queue.isEmpty then q else s.nvm.queue, curAt := s.now, curCycle := s.cycle, journal := journal, marker := some (page, s.time.tick.setWidth 32) } }
    else
      let n := q.length + 1
      (({ s with log := { s.log with bb := { s.log.bb with queue := [], busy := s.log.bb.busy && s.log.bb.queue.isEmpty } }
                 nvm := { s.nvm with queue := [], defs := [], aband := satAdd s.nvm.aband 1, gateOk := false } }).evp 3).dev 0x703 4
        [nw s.nvm.ng, nw s.gQ, nw w.groups, nw n]
  | _, _ => s

/-- Bytes of a completed write enter the store; its groups are whole again (R284). -/
def State.nvStore (s : State) (off : Nat) (data : List Byte) : State :=
  let mem := if off < sysArea then memPut s.mem (mramBase + off) data else s.mem
  let groups := (List.range ((data.length + 7) / 8)).map fun j => mramBase + off - off % 8 + 8 * j
  { s with mem := mem, ecc := groups.foldl (fun e g => sput e g none) s.ecc }

/-- The descriptor of a partition that a power failure leaves where its DEFINE was cut short: every field is old or new, which of the
two is open (R290) (notes/assumptions/9.md, 39.md). -/
def PartDef.torn (c : Word) (old new : PartDef) : PartDef :=
  { en := if bit c 0 then new.en else old.en
    rpw := if bit c 1 then new.rpw else old.rpw
    wpw := if bit c 2 then new.wpw else old.wpw
    first := if bit c 3 then new.first else old.first
    count := if bit c 4 then new.count else old.count
    rdPw := if bit c 5 then new.rdPw else old.rdPw
    wrPw := if bit c 6 then new.wrPw else old.wrPw }

/-- What the system area holds of a write whose groups had all been written at a power failure (R290, R295, R298). -/
def State.nvWhole (s : State) (w : NvWrite) : State :=
  match w.src with
  | .define i =>
    match s.nvm.defs.find? fun d => d.1 = i with
    | none => s
    | some (_, d) => { s with nvm := { s.nvm with sysPart := s.nvm.sysPart.set i (some d) } }
  | .journalClear i => { s with nvm := { s.nvm with journal := s.nvm.journal.set i none } }
  | _ => s

/-- What the system area holds of the write in progress at a power failure, some of its groups written (R290, R295, R298). -/
def State.nvTorn (s : State) (w : NvWrite) : State :=
  match w.src with
  | .define i =>
    match s.nvm.defs.find? fun d => d.1 = i with
    | none => s
    | some (_, d) =>
      let old := s.nvm.sysPart[i].getD { en := false, rpw := false, wpw := false, first := 0, count := 0, rdPw := 0, wrPw := 0 }
      { s.drawn with nvm := { s.nvm with sysPart := s.nvm.sysPart.set i (some (PartDef.torn (Config.freeWord s.freeCtr) old d)) } }
  | .journalClear i =>
    if bit (Config.freeWord s.freeCtr) 0 then { s.drawn with nvm := { s.nvm with journal := s.nvm.journal.set i none } } else s.drawn
  | _ => s

/-- A DEFINE completes (R295) (notes/assumptions/39.md). -/
def State.defineDone (s : State) (i : Fin 8) : State :=
  match s.nvm.defs.find? fun d => d.1 = i with
  | none => s
  | some (_, d) =>
    { s with nvm := { s.nvm with
        defs := s.nvm.defs.filter fun d => d.1 ≠ i
        sysPart := s.nvm.sysPart.set i (some d)
        part := upd s.nvm.part i fun p => { p with
          en := d.en, rpw := d.rpw, wpw := d.wpw, first := d.first, count := d.count, rdPw := d.rdPw, wrPw := d.wrPw,
          unlHostR := false, unlHostW := false, unlStkR := false, unlStkW := false } } }

/-- PAGE_WRITE_DONE (R284): the groups of the write in progress have all been written. -/
def State.pageDone (s : State) : State :=
  match s.nvm.cur with
  | none => s
  | some w =>
    if s.nvm.curAt + w.groups ≤ s.now then
      let s := (s.nvStore w.off w.data).evp 3
      let journal := match w.abLast with
        | some i => s.nvm.journal.set i none
        | none => s.nvm.journal
      let s := { s with nvm := { s.nvm with cur := none, marker := none, journal := journal } }
      match w.src with
      | .define i => s.defineDone i
      | .journalClear i => { s with nvm := { s.nvm with journal := s.nvm.journal.set i none } }
      | .blackBox _ true => { s with log := { s.log with bb := { s.log.bb with sealDone := true } } }
      | _ => s
    else s

/-- A power failure in mid-write (R290): completed groups are new, the group being written is left open, later ones are old (notes/assumptions/9.md). -/
def State.nvPowerFail (s : State) : State :=
  let s := s.pageDone
  match s.nvm.cur with
  | none => s
  | some w =>
    let spent := (600 * (s.now - s.nvm.curAt) + s.cycle - s.nvm.curCycle) / 600
    let n := min (w.data.length / 8) (spent - w.lead)
    let s := s.nvStore w.off (w.data.take (8 * n))
    let s := if n < w.data.length / 8 ∧ w.lead ≤ spent then
        let g := w.off + 8 * n
        let c := (Config.freeWord s.freeCtr).toNat % 3
        let s := s.drawn
        if c = 0 then s else if c = 1 then s.nvStore g ((w.data.drop (8 * n)).take 8) else { s with ecc := sput s.ecc (mramBase + g) (some .uncorr) }
      else s
    let s := if n = w.data.length / 8 then s.nvWhole w else if w.lead ≤ spent then s.nvTorn w else s
    { s with nvm := { s.nvm with cur := none } }

/-! ### Passwords (R293-R295) -/

def State.pw64 (s : State) (w : Nat) : BitVec 64 :=
  (s.nvm.pw[(idx (w + 1) : Fin 6)]).setWidth 64 <<< 32 ||| (s.nvm.pw[(idx w : Fin 6)]).setWidth 64

/-- The result of NVM_PCMD; the presented passwords are cleared (R293). -/
def State.pcmdEnd (s : State) (r : BitVec 3) : State := { s with nvm := { s.nvm with pres := r, pw := Vector.replicate 6 0 } }

/-- UNLOCK_R and UNLOCK_W (R293, R294) (notes/assumptions/39.md). -/
def State.unlock (s : State) (ini : Initiator) (i : Fin 8) (wr : Bool) : State :=
  let p := s.nvm.part[i]
  let modP (s : State) (f : PartSt → PartSt) : State := { s with nvm := { s.nvm with part := upd s.nvm.part i f } }
  if p.lockout then s.pcmdEnd 2
  else if !(if wr then p.wpw else p.rpw) then s.pcmdEnd 0
  else if s.pw64 0 = (if wr then p.wrPw else p.rdPw) then
    (modP s fun p => match isHost ini, wr with
      | true, false => { p with unlHostR := true }
      | true, true => { p with unlHostW := true }
      | false, false => { p with unlStkR := true }
      | false, true => { p with unlStkW := true }).pcmdEnd 0
  else
    let n := p.fails + 1
    let s := (modP s fun p => { p with fails := n }).dev 0x705 4
      [nw i.val, Config.codeOf 0x705 1 wr.toNat, Config.codeOf 0x705 2 (isHost ini).toNat, nw n]
    let s := if n = 5 then
        (modP s fun p => { p with lockout := true, unlHostR := false, unlHostW := false, unlStkR := false, unlStkW := false }).dev 0x706 6 [nw i.val]
      else s
    s.pcmdEnd 1

/-- LOCK (R293). -/
def State.lockPart (s : State) (ini : Initiator) (i : Fin 8) : State :=
  let off (p : PartSt) : PartSt :=
    if isHost ini then { p with unlHostR := false, unlHostW := false } else { p with unlStkR := false, unlStkW := false }
  State.pcmdEnd { s with nvm := { s.nvm with part := upd s.nvm.part i off } } 0

/-- DEFINE (R295) (notes/assumptions/39.md). -/
def State.definePart (s : State) (ini : Initiator) (i : Fin 8) : State :=
  let p := s.nvm.part[i]
  let w0 := s.reg 0x80120
  let d : PartDef := { en := bit w0 31, rpw := bit w0 30, wpw := bit w0 29, first := bits w0 0 15, count := bits (s.reg 0x80124) 0 16,
                       rdPw := s.pw64 2, wrPw := s.pw64 4 }
  let stop := d.first.toNat + d.count.toNat
  let meets (first : BitVec 15) (count : Half) : Bool := decide (d.first.toNat < first.toNat + count.toNat) && decide (first.toNat < stop)
  let clash := ((fins 8).any fun j => let q := s.nvm.part[j]; j ≠ i && q.en && meets q.first q.count) ||
    s.nvm.defs.any fun q => q.1 ≠ i && q.2.en && meets q.2.first q.2.count
  if p.en && p.wpw && !(if isHost ini then p.unlHostW else p.unlStkW) then s.pcmdEnd 3
  else if d.count = 0 ∨ 32752 < stop ∨ clash then s.pcmdEnd 4
  else if 16 ≤ s.nvPages ∨ (s.nvm.defs.any fun d => d.1 = i) then s.pcmdEnd 6
  else if s.gateOpen 10 then
    let w : NvWrite := { src := .define i, off := 64 * (32752 + i.val), data := List.replicate 64 0 }
    let s := s.gateYes
    State.pcmdEnd { s with nvm := { s.nvm with defs := s.nvm.defs ++ [(i, d)], queue := s.nvm.queue ++ [w] } } 0
  else (s.gateNo 10).pcmdEnd 5

/-! ### A/B records (R296-R298) -/

def State.modAb (s : State) (i : Fin 16) (f : AbSt → AbSt) : State := { s with nvm := { s.nvm with ab := upd s.nvm.ab i f } }

/-- Registration (R297): a write of NVM_AB[i] word 0 with en = 1 while en is 0. -/
def State.abRegister (s : State) (i : Fin 16) (n : BitVec 3) (pageA : BitVec 15) : State :=
  let r := s.nvm.ab[i]
  if r.en then s.flagErr errLocked (0x80400 + 16 * i.val)
  else
    let s := s.modAb i fun r => { r with n := n, pageA := pageA }
    let k := n.toNat + 1
    let (a, b) := (pageA.toNat, r.pageB.toNat)
    let meet (x y m : Nat) : Bool := decide (x < y + m) && decide (y < x + k)
    let clash := (fins 16).any fun j => let q := s.nvm.ab[j]
      j ≠ i && q.en && [a, b].any fun x => [q.pageA.toNat, q.pageB.toNat].any fun y => meet x y q.pages
    if 32752 < a + k ∨ 32752 < b + k ∨ meet a b k ∨ clash then { s with nvm := { s.nvm with regErr := true } }
    else s.modAb i fun r => { r with en := true, busy := true, winner := 0, validA := false, validB := false, gap := false, seq := 0 }

/-- Bytes of a copy. -/
def State.copyBytes (s : State) (page n : Nat) : List Byte := (List.range (64 * n)).map fun i => s.nvByte (64 * page + i)

/-- A copy is valid: no group reads uncorrectable, and the CRC matches (R296); its sequence number. -/
def State.copySeq (s : State) (page n : Nat) : Option Word :=
  let bs := s.copyBytes page n
  let clean := (List.range (8 * n)).all fun j => s.nvMark (64 * page + 8 * j) != some .uncorr
  if clean ∧ crc32 (bs.take (64 * n - 4)) = nw (leNat (bs.drop (64 * n - 4))) then some (nw (leNat ((bs.drop (64 * n - 8)).take 4))) else none

/-- The winner of two copies: 0 none, 1 A, 2 B (R296). -/
def abWinner : Option Word → Option Word → BitVec 2
  | none, none => 0
  | some _, none => 1
  | none, some _ => 2
  | some x, some y => let d := (y - x).toNat; if 1 ≤ d ∧ d < 2 ^ 31 then 2 else 1

/-- AB_VALIDATION_DONE (R298): none in SLEEP or SHIP, where the array is off (19 R401). -/
def State.abDone (s : State) (i : Fin 16) : State :=
  let r := s.nvm.ab[i]
  if !r.busy || s.nvm.cur.isSome || !s.awake then s
  else
    let va := s.copySeq r.pageA.toNat r.pages
    let vb := s.copySeq r.pageB.toNat r.pages
    let w := abWinner va vb
    let s := s.modAb i fun r => { r with busy := false, winner := w, validA := va.isSome, validB := vb.isSome,
                                         seq := (if w = 1 then va else if w = 2 then vb else none).getD 0 }
    let clear (s : State) : State :=
      if 16 ≤ s.nvPages then s
      else if s.gateOpen 3 then
        { s.gateYes with nvm := { s.gateYes.nvm with queue := s.nvm.queue ++ [{ src := .journalClear i, off := 64 * 32761 + 8 * i.val, data := List.replicate 8 0 }] } }
      else s.gateNo 3
    match s.nvm.journal[i] with
    | none => s
    | some j =>
      if w = (if j.copyB then 2 else 1) then clear s
      else
        clear ((s.modAb i fun r => { r with gap := true }).dev 0x707 5
          ([nw i.val, Config.codeOf 0x707 1 j.copyB.toNat] ++ tickWords j.tick ++ [r.bound]))

/-! ### The scrubber (R283) -/

/-- MRAM_SCRUB: one group is read in an idle cycle, while the array is on (19 R401) (notes/assumptions/19.md). -/
def State.mramScrub (s : State) : State :=
  let ivl := fld (s.reg 0x80004) 0 16
  if ivl = 0 ∨ ¬ s.awake ∨ s.pins.pfail ∨ s.nvm.cur.isSome ∨ ¬ s.nvWaiting.isEmpty ∨ s.now < s.nvm.scrubAt + ivl then s
  else
    let g := s.nvm.scrubPos % 262144
    let a := mramBase + 8 * g
    let s : State := { s with nvm := { s.nvm with scrubPos := (g + 1) % 262144, scrubAt := s.now } }
    match sget s.ecc a with
    | none => s
    | some .uncorr => (s.nvErr false a).dev 0x702 6 [nw a, Config.codeOf 0x702 1 4]
    | some .corr =>
      let s := s.nvCorr a
      if s.gateOpen 3 then
        { s.gateYes with nvm := { s.gateYes.nvm with queue := [{ src := .scrub, off := 8 * g, data := s.bytes a 8 }] } }
      else s.gateNo 3

/-! ### Registers -/

/-- Reads of the store's status registers. -/
def State.nvmRead (s : State) (o : Nat) : Word :=
  let n := s.nvm
  if o = 0 then bw n.cur.isSome 31 ||| bw s.pins.pfail 30 ||| nw s.nvPages <<< 21 ||| at_ n.aband 16 ||| nw n.ng
  else if o = 8 then n.volt
  else if o = 0x20 then bw n.uncorr 31 ||| bw n.denied 30 ||| bw n.regErr 29 ||| at_ n.corrCnt 0
  else if o = 0x24 then n.errAddr
  else if 0x28 ≤ o ∧ o < 0x34 then at_ n.last[(idx ((o - 0x28) / 4) : Fin 3)] 0
  else if o = 0x84 then at_ n.cmdRes 0
  else if o = 0x11C then at_ n.pres 0
  else if 0x200 ≤ o ∧ o < 0x240 then
    let p := n.part[(idx ((o - 0x200) / 8) : Fin 8)]
    if o % 8 = 0 then
      bw p.en 31 ||| bw p.rpw 30 ||| bw p.wpw 29 ||| nw p.fails <<< 26 ||| bw p.lockout 25 ||| bw p.unlHostR 24 ||| bw p.unlHostW 23 |||
      bw p.unlStkR 22 ||| bw p.unlStkW 21 ||| at_ p.first 0
    else at_ p.count 0
  else if 0x400 ≤ o ∧ o < 0x500 then
    let r := n.ab[(idx ((o - 0x400) / 16) : Fin 16)]
    match o % 16 / 4 with
    | 0 => bw r.en 31 ||| bw r.busy 30 ||| at_ r.winner 28 ||| bw r.validA 27 ||| bw r.validB 26 ||| bw r.gap 25 ||| at_ r.n 16 ||| at_ r.pageA 0
    | 1 => at_ r.pageB 0
    | 2 => r.bound
    | _ => r.seq
  else 0

/-- A write of NVM_AB[i]; `old` is the word as it stands, `v` the word with the bytes written merged in (R297, "Registers"). -/
def State.abWrite (s : State) (i : Fin 16) (w : Nat) (v : Word) : State :=
  let r := s.nvm.ab[i]
  if w = 3 then s
  else if r.en then s.flagErr errLocked (0x80400 + 16 * i.val + 4 * w)
  else match w with
    | 0 => if bit v 31 then s.abRegister i (bits v 16 3) (bits v 0 15) else s.modAb i fun r => { r with n := bits v 16 3, pageA := bits v 0 15 }
    | 1 => s.modAb i fun r => { r with pageB := bits v 0 15 }
    | _ => s.modAb i fun r => { r with bound := v }

/-- Writes of the store's own registers: `v` holds only the bytes written, `m` is the word with them merged in, `lane` their mask. -/
def State.nvmWrite (s : State) (ini : Initiator) (o : Nat) (v m lane : Word) : State :=
  if o = 0x04 then
    s.setReg 0x80004 ((m &&& 0x0000FFFF) ||| ((s.reg 0x80004 ||| v) &&& 0x80000000))
  else if 0x10 ≤ o ∧ o < 0x20 then
    (if !bit (s.reg 0x80004) 31 then s.setReg (0x80000 + o) m else if m = s.reg (0x80000 + o) then s else s.flagErr errLocked (0x80000 + o))
  else if o = 0x20 then
    { s with nvm := { s.nvm with uncorr := s.nvm.uncorr && !bit v 31, denied := s.nvm.denied && !bit v 30, regErr := s.nvm.regErr && !bit v 29 } }
  else if o = 0x80 then (if bit v 31 then s.nvCmd ini (fld v 0 15) else s)
  else if 0x100 ≤ o ∧ o < 0x118 then
    { s with nvm := { s.nvm with pw := upd s.nvm.pw (idx ((o - 0x100) / 4)) fun p => (p &&& ~~~ lane) ||| v } }
  else if o = 0x118 then
    let i : Fin 8 := idx (fld v 0 3)
    match fld v 28 4 with
    | 1 => s.unlock ini i false
    | 2 => s.unlock ini i true
    | 3 => s.lockPart ini i
    | 4 => s.definePart ini i
    | _ => s
  else if 0x400 ≤ o ∧ o < 0x500 then s.abWrite (idx ((o - 0x400) / 16)) (o % 16 / 4) m
  else s

end Sys2Proof.Machine
end

