-- ==== Sys2Proof/Machine/Otp.lean ====
section
/-! DEFINITION. The fuse array: sensing, seals and region states, the feature mask, programming, the screen (14_fuses.md). -/

namespace Sys2Proof.Machine

/-- Latched word `w`. -/
def State.fuse (s : State) (w : Nat) : Word := s.otp.data[(idx w : Fin 256)]

/-- The write-lock and the read-lock of region `r` in latched word 240 (R306). -/
def State.otpWlock (s : State) (r : Nat) : Bool := bit (s.fuse 240) r
def State.otpRlock (s : State) (r : Nat) : Bool := r < 15 && bit (s.fuse 240) (16 + r)

/-- The seal word that words 0-14 of region `r` call for (R303). -/
def sealFor (d : Vector Word 256) (r : Nat) : Word :=
  let top : Word := 0xC3A <<< 20 ||| nw r <<< 16
  let body := (List.range 15).flatMap fun i => wBytes d[(idx (16 * r + i) : Fin 256)]
  top ||| (crc16 (body ++ (wBytes top).drop 2)).setWidth 32

/-- The state of region `r` (R304): 0 BLANK, 1 OPEN, 2 SEALED, 3 SEALED_INCOMPLETE. -/
def regionState (d : Vector Word 256) (r : Nat) : BitVec 2 :=
  let blank := (List.range 16).all fun i => d[(idx (16 * r + i) : Fin 256)] == 0
  if blank then 0
  else if r = 15 then 1
  else if d[(idx (16 * r + 15) : Fin 256)] = sealFor d r then 2
  else if bit d[(240 : Fin 256)] r then 3 else 1

/-- Every reserved bit is 0 and every "requires" of R309 holds. -/
def maskOk (m : Half) : Bool :=
  fld m 11 5 == 0 && (!bit m 1 || bit m 0) && (!bit m 3 || bit m 2) && (!bit m 5 || bit m 4) && (!bit m 7 || bit m 6) && (!bit m 10 || bit m 9)

/-- The first check of R310 that fails (0: none). -/
def featCause (st : BitVec 2) (w16 : Word) : Nat :=
  let m := (bits w16 0 16 : Half)
  if st = 0 ∨ st = 1 then 1 else if st = 3 then 2 else if (bits w16 16 16 : Half) ≠ ~~~ m then 3 else if !maskOk m then 4 else 0

/-- Secure boot is on (R300, 19 R396), and a digest can be accepted. -/
def State.secureBoot (s : State) : Bool :=
  let st := s.otp.region[(2 : Fin 16)]
  st == 3 || (st == 2 && bit (s.fuse 40) 0)

/-- Marginal words of region `r`. -/
def State.otpMargN (s : State) (r : Nat) : Nat := ((List.range 16).filter fun i => bit s.otp.marginal (16 * r + i)).length

/-- The OR of a word's two copies (R299). -/
def OtpSt.fuses (o : OtpSt) (w : Nat) : Word := o.copyA[(idx w : Fin 256)] ||| o.copyB[(idx w : Fin 256)]

/-- Fuses of a word that are blown now stay blown (R299). -/
def OtpSt.blow (o : OtpSt) (w : Nat) (a b : Word) : OtpSt :=
  { o with copyA := upd o.copyA (idx w : Fin 256) (· ||| a), copyB := upd o.copyB (idx w : Fin 256) (· ||| b) }

/-- The whole array as sensed (R301): a word not listed reads as its fuses stand, at both references (notes/assumptions/40.md). -/
def OtpSt.sensed (o : OtpSt) (rs : List FuseReading) (w : Nat) : Word × Word :=
  match rs.find? fun r => r.w.toNat = w with
  | some r => (r.normal, r.margin)
  | none => (o.fuses w, o.fuses w)

/-- Sensing at power-on: latched words, marginal map, region states, feature mask, part code (R301-R304, R309, R310). -/
def State.otpSense (s : State) (rs : List FuseReading) : State :=
  let o := s.otp
  let d : Vector Word 256 := Vector.ofFn fun w : Fin 256 => (o.sensed rs w.val).1
  let weak : List Nat := (List.range 256).filter fun w => (o.sensed rs w).1 ≠ (o.sensed rs w).2
  let marg : BitVec 256 := weak.foldl (fun m w => m ||| 1 <<< w) 0
  let reg : Vector (BitVec 2) 16 := Vector.ofFn fun r : Fin 16 => regionState d r.val
  let found := rs.foldl (fun (o : OtpSt) r => o.blow r.w.toNat r.normal 0) o
  let s : State := { s with otp := { found with seen := true, data := d, marginal := marg, region := reg } }
  let s := weak.foldl (fun (s : State) w => s.dev 0x701 5 [nw w, (o.sensed rs w).1, (o.sensed rs w).2]) s
  let s := (List.range 15).foldl (fun (s : State) r =>
    if s.otp.region[(idx r : Fin 16)] = 3 then s.dev 0x710 6 [nw r, s.fuse (16 * r + 15)] else s) s
  let w16 := s.fuse 16
  let w17 := s.fuse 17
  let st := s.otp.region[(1 : Fin 16)]
  let cause := featCause st w16
  let part : Half := if st = 2 ∧ (bits w17 16 16 : Half) = ~~~ (bits w17 0 16 : Half) then bits w17 0 16 else 0
  let s : State := { s with feat := if cause = 0 then bits w16 0 16 else 0, otp := { s.otp with cause := BitVec.ofNat 4 cause, part := part } }
  if cause = 0 then s else s.dev 0x711 7 [nw cause, w16]

/-! ### Programming (R311, R312) -/

/-- A command ends: attempts and status. -/
def State.otpEnd (s : State) (att status : BitVec 4) : State := { s with otp := { s.otp with cmd := none, att := att, status := status } }

/-- PROGRAM: the checks of R311 in order, the word sensed as its fuses stand; then programming begins (notes/assumptions/40.md). -/
def State.otpProgram (s : State) (key : Byte) (tries : BitVec 4) (w : Byte) : State :=
  let target := s.reg 0x90008
  let r := w.toNat / 16
  if s.otp.cmd.isSome then { s with otp := { s.otp with status := 1 } }
  else if key ≠ 0x5A then s.otpEnd 0 2
  else if s.pins.pfail then s.otpEnd 0 3
  else if s.otpWlock r then s.otpEnd 0 4
  else if s.otp.region[(idx r : Fin 16)] = 2 then s.otpEnd 0 5
  else if s.otp.fuses w.toNat &&& ~~~ target ≠ 0 then s.otpEnd 0 6
  else { s with otp := { s.otp with cmd := some (.program w (if tries = 0 then 8 else tries.toNat) target), cmdAt := s.now, cmdPfail := false, cmdStop := 0 } }

/-- Attempts begun of the command under way at elapsed tick `s.now`: the last of them is in progress, 24 ticks each (R312). -/
def State.otpAttempt (s : State) : Nat := max 1 ((s.now - s.otp.cmdAt + 23) / 24)

/-- The command stops with the attempt in progress, for PFAIL_N or for a system reset (R312, 19 R391). -/
def State.otpStop (s : State) : State :=
  match s.otp.cmd with
  | some (.program _ _ _) => if s.otp.cmdStop = 0 then { s with otp := { s.otp with cmdStop := s.otpAttempt } } else s
  | _ => s

/-- The pulses of a command that ends: a verified word has every target bit in both copies; otherwise which of the pulsed fuses blew is
open (R299, R312; notes/assumptions/9.md, 40.md). -/
def State.otpBlow (s : State) (w : Byte) (target reading : Word) (verified : Bool) : State :=
  if verified then { s with otp := s.otp.blow w.toNat (target ||| reading) target }
  else
    let a := target &&& Config.freeWord s.freeCtr
    let b := target &&& Config.freeWord (s.freeCtr + 1)
    { s.drawn.drawn with otp := s.otp.blow w.toNat (a ||| reading) b }

/-- The power fails while a word is programmed: it may be partly programmed (R312). -/
def State.otpPowerFail (s : State) : State :=
  match s.otp.cmd with
  | some (.program w _ target) => s.otpBlow w target 0 false
  | _ => s

/-- OTP_PROGRAM_DONE (R308, R312): due once the attempts it names have run (notes/assumptions/40.md). -/
def State.otpDone (s : State) (att : BitVec 4) (reading : Word) (verified : Bool) : State :=
  match s.otp.cmd with
  | some (.program w limit target) =>
    let due := 1 ≤ att.toNat ∧ att.toNat ≤ limit ∧ s.otp.cmdAt + 24 * att.toNat ≤ s.now ∧
      (verified = true → target &&& ~~~ reading = 0) ∧ (verified = false → att.toNat = limit ∨ att.toNat = s.otp.cmdStop) ∧
      (s.otp.cmdStop = 0 ∨ att.toNat ≤ s.otp.cmdStop)
    if due then
      let stopped := s.otp.cmdPfail && s.otp.cmdStop == att.toNat
      let s := s.otpBlow w target reading verified
      let s : State := { s with otp := { s.otp with rd := reading } }
      let s : State := if verified && w == 240 then { s with otp := { s.otp with data := upd s.otp.data 240 (· ||| target) } } else s
      if stopped then s.otpEnd att 3
      else if verified then s.otpEnd att 0
      else if att.toNat = limit then (s.otpEnd att 7).dev 0x712 5 [w.setWidth 32, target, reading]
      -- a system reset has stopped the command short of its limit: its status is lost (19 R391)
      else s.otpEnd att s.otp.status
    else s
  | _ => s

/-! ### The screen (R313) -/

def State.otpScreen (s : State) (key : Byte) : State :=
  if s.otp.cmd.isSome then { s with otp := { s.otp with status := 1 } }
  else if key ≠ 0x5A then s
  else { s with otp := { s.otp with cmd := some .screen, cmdAt := s.now, cmdPfail := false, cmdStop := 0 } }

/-- OTP_SCREEN_DONE: 512 ticks after the start. -/
def State.otpScreenDone (s : State) (marg : List Byte) (sgl : BitVec 9) : State :=
  match s.otp.cmd with
  | some .screen =>
    if s.otp.cmdAt + 512 ≤ s.now then
      let m : BitVec 256 := marg.foldl (fun m w => m ||| 1 <<< w.toNat) 0
      let n := ((List.range 256).filter fun w => bit m w).length
      let s : State := { s with otp := { s.otp with screenMap := m, screenMarg := BitVec.ofNat 9 n, screenSgl := sgl } }
      s.otpEnd s.otp.att 0
    else s
  | _ => s

/-! ### Registers -/

def State.otpRead (s : State) (o : Nat) : Word :=
  let t := s.otp
  if o = 0 then bw t.cmd.isSome 31 ||| bw (t.cause != 0) 30 ||| bw s.secureBoot 29 ||| nw ((List.range 256).filter fun w => bit t.marginal w).length <<< 16
  else if o = 0x0C then at_ t.att 24 ||| at_ t.status 0
  else if o = 0x10 then t.rd
  else if 0x20 ≤ o ∧ o < 0x40 then bits t.marginal (8 * (o - 0x20)) 32
  else if 0x40 ≤ o ∧ o < 0x60 then bits t.screenMap (8 * (o - 0x40)) 32
  else if o = 0x60 then at_ t.screenMarg 16 ||| at_ t.screenSgl 0
  else if o = 0x80 then at_ t.cause 28 ||| at_ s.feat 0
  else if o = 0x84 then at_ t.part 0
  else if 0xC0 ≤ o ∧ o < 0x100 then
    let r := (o - 0xC0) / 4
    at_ t.region[(idx r : Fin 16)] 30 ||| bw (s.otpWlock r) 29 ||| bw (bit (s.fuse 240) (16 + r)) 28 ||| nw (s.otpMargN r)
  else if 0x400 ≤ o ∧ o < 0x800 then
    let w := (o - 0x400) / 4
    if s.otpRlock (w / 16) then 0 else s.fuse w
  else 0

/-- A write of OTP_CMD. -/
def State.otpWrite (s : State) (o : Nat) (v : Word) : State :=
  if o = 0x04 then
    match fld v 28 4 with
    | 1 => s.otpProgram (bits v 16 8) (bits v 8 4) (bits v 0 8)
    | 2 => s.otpScreen (bits v 16 8)
    | _ => s
  else s

end Sys2Proof.Machine
end

