-- ==== Sys2Proof/Machine/Seq.lean ====
section
/-! DEFINITION. Tables: validation, installation, removal, protected ranges; machine events and timers (04_tables.md).
The step of a machine is in Tstep.lean. -/

namespace Sys2Proof.Machine

/-- A range lies wholly in data SRAM. -/
def inData (a n : Nat) : Bool := 0x200000 ≤ a && a + n ≤ 0x280000

/-- A word address that a term or an action may name: 4-aligned, in the register blocks or data SRAM (R102, R103). -/
def seqAddr (a n : Nat) : Bool := a % 4 == 0 && (a + n ≤ 0xF0000 || inData a n)

/-- One check of the validation: offset, whether it passes, the result if not (R425). -/
structure TblCheck where
  off : Nat
  ok : Bool
  res : Nat := 4

/-- The first check that fails: result and offset. -/
def firstFail (l : List TblCheck) : Option (Nat × Nat) := (l.find? fun c => !c.ok).map fun c => (c.res, c.off)

/-- Reserved bytes at offsets `o` to `o + n − 1`, each told by itself. -/
def zeroChecks (b : Nat → Nat) (o n : Nat) : List TblCheck := (List.range n).map fun i => { off := o + i, ok := b (o + i) == 0 }

/-- The greatest id of a kind of table (R95). -/
def maxId : Nat → Option Nat
  | 1 => some 63
  | 2 => some 255
  | 3 | 4 | 5 => some 0
  | _ => none

/-- PMBus codes that TWI0 handles by hardware (15 R326). -/
def hwCodes : List Nat := [0x03, 0x78, 0x79, 0x7D, 0x7E, 0x80, 0x98, 0x99, 0x9A, 0xD0, 0xD1, 0xD2, 0xD3]

/-- The bytes of a table, by offset. -/
structure TblBytes where
  mem : List Byte

def TblBytes.b (t : TblBytes) (o : Nat) : Nat := (t.mem.getD o 0).toNat
def TblBytes.h (t : TblBytes) (o : Nat) : Nat := t.b o + 256 * t.b (o + 1)
def TblBytes.w (t : TblBytes) (o : Nat) : Word := nw (t.h o + 65536 * t.h (o + 2))

/-- Whether a word range touches a protected range. -/
def touches (ps : List (Nat × Nat)) (a n : Nat) : Bool := ps.any fun p => decide (a < p.1 + p.2) && decide (p.1 < a + n)

/-! ### Bodies (R101-R103, R110, R112-R114) -/

/-- A term at offset `o` (R102). -/
def termChecks (t : TblBytes) (o : Nat) : List TblCheck :=
  let k := t.b o
  let src := (t.w (o + 2)).toNat
  [{ off := o, ok := decide (k ≤ 7) },
   { off := o + 1, ok := decide (t.b (o + 1) ≤ (if k = 4 ∨ k = 5 then 1 else 5)) },
   { off := o + 2, ok := if k = 1 ∨ k = 2 ∨ k = 3 ∨ k = 4 then seqAddr src 4 else if k = 6 then seqAddr src 8 else true }]

/-- An action at offset `o` (R103). -/
def actionChecks (ps : List (Nat × Nat)) (t : TblBytes) (o : Nat) : List TblCheck :=
  let k := t.b o
  let a := (t.w (o + 4)).toNat
  let n := if k = 2 then 8 else 4
  [{ off := o, ok := decide (k ≤ 8) },
   { off := o + 1, ok := k != 8 || decide (t.b (o + 1) < 64) },
   { off := o + 2, ok := k != 7 || decide (0xB00 ≤ t.h (o + 2) % 4096) },
   { off := o + 4, ok := !(1 ≤ k && k ≤ 4) || (seqAddr a n && !touches ps a n) }]

/-- An index with its count against the number of records; a count beyond its own limit is not charged to the index
(notes/assumptions/50.md). -/
def idxOk (first count limit all : Nat) : Bool := if count ≤ limit then decide (first + count ≤ all) else decide (first ≤ all)

/-- A state record at offset `o` (R101), each list told at its index (notes/assumptions/50.md). -/
def stateChecks (t : TblBytes) (o nTrans nAct : Nat) : List TblCheck :=
  [{ off := o, ok := idxOk (t.h o) (t.b (o + 2)) 32 nTrans },
   { off := o + 2, ok := decide (t.b (o + 2) ≤ 32), res := 3 },
   { off := o + 3, ok := t.b (o + 3) == 0 },
   { off := o + 4, ok := idxOk (t.h (o + 4)) (t.b (o + 6)) 16 nAct },
   { off := o + 6, ok := decide (t.b (o + 6) ≤ 16), res := 3 },
   { off := o + 7, ok := t.b (o + 7) == 0 }]

/-- A transition record at offset `o` (R101). -/
def transChecks (t : TblBytes) (o nStates nAct : Nat) : List TblCheck :=
  termChecks t o ++ termChecks t (o + 10) ++
  [{ off := o + 20, ok := decide (t.b (o + 20) < nStates) },
   { off := o + 21, ok := decide (t.b (o + 21) ≤ 16), res := 3 },
   { off := o + 22, ok := decide (t.h (o + 22) + t.b (o + 21) ≤ nAct) }]

/-- MACHINE (R101-R103, R425 steps 6 and 7). DESIGN CHOICE: a table too short to hold its counts is refused with 2 before they are looked at
(notes/assumptions/50.md). -/
def machineChecks (ps : List (Nat × Nat)) (t : TblBytes) (len : Nat) : List TblCheck :=
  let ns := t.b 16
  let nt := t.h 18
  let na := t.h 20
  let s0 := 24
  let t0 := s0 + 8 * ns
  let a0 := t0 + 24 * nt
  if len < 20 then [{ off := 4, ok := false, res := 2 }]
  else
    [{ off := 16, ok := decide (1 ≤ ns) && decide (ns ≤ 32), res := 3 }, { off := 18, ok := decide (nt ≤ 256), res := 3 },
     { off := 20, ok := decide (na ≤ 512), res := 3 }, { off := 4, ok := len == a0 + 12 * na, res := 2 },
     { off := 17, ok := decide (t.b 17 < ns) }] ++ zeroChecks t.b 22 2 ++
    ((List.range ns).flatMap fun i => stateChecks t (s0 + 8 * i) nt na) ++
    ((List.range nt).flatMap fun i => transChecks t (t0 + 24 * i) ns na) ++
    ((List.range na).flatMap fun i => actionChecks ps t (a0 + 12 * i))

/-- The count at offset 16 with its limits, the length it gives, the reserved bytes (R425 steps 6 and 7). A count of points outside
its limits gives result 3 as R425 says, not 5 as R110 says (notes/assumptions/50.md). -/
def countChecks (t : TblBytes) (len lo hi size : Nat) : List TblCheck :=
  [{ off := 4, ok := decide (20 ≤ len), res := 2 }, { off := 16, ok := decide (lo ≤ t.h 16) && decide (t.h 16 ≤ hi), res := 3 },
   { off := 4, ok := len == 20 + size * t.h 16, res := 2 }] ++ zeroChecks t.b 18 2

/-- CURVE (R110). A rule over two or three points is charged to the last of them; a slope to its own point. The differences and the
quotient of a slope are each rounded (notes/assumptions/50.md). -/
def curveChecks (t : TblBytes) (len : Nat) : List TblCheck :=
  let n := t.h 16
  let x (i : Nat) := t.w (20 + 12 * i)
  let y (i : Nat) := t.w (24 + 12 * i)
  countChecks t len 2 64 12 ++ (List.range n).flatMap fun i =>
    let want : Word := if i + 1 = n ∨ fpEq (x (i + 1)) (x i) = true then 0 else fDiv (fSub (y (i + 1)) (y i)) (fSub (x (i + 1)) (x i))
    let next := i + 1 == n || (fIsFinite (x (i + 1)) && fIsFinite (y (i + 1)) && fpGe (x (i + 1)) (x i))
    [{ off := 20 + 12 * i, res := 5, ok := fIsFinite (x i) && (i == 0 || fpGe (x i) (x (i - 1))) &&
        !(decide (2 ≤ i) && fpEq (x i) (x (i - 1)) && fpEq (x (i - 1)) (x (i - 2))) },
     { off := 24 + 12 * i, res := 5, ok := fIsFinite (y i) },
     { off := 28 + 12 * i, res := 5, ok := fIsFinite (t.w (28 + 12 * i)) && (!next || t.w (28 + 12 * i) == want) }]

/-- PMBUS_MAP (R112, 15 R326). -/
def pmbusChecks (t : TblBytes) (len : Nat) : List TblCheck :=
  let n := t.h 16
  countChecks t len 1 256 12 ++ (List.range n).flatMap fun i =>
    let o := 20 + 12 * i
    let code := t.b o
    let ports := BitVec.ofNat 8 (t.b (o + 1))
    let blk := t.b (o + 2) / 4 % 2 = 1
    let l := t.b (o + 3)
    let a := (t.w (o + 4)).toNat
    let again := (List.range i).any fun j => t.b (20 + 12 * j) == code && (BitVec.ofNat 8 (t.b (21 + 12 * j)) &&& ports &&& 7) != 0
    [{ off := o, ok := !again && !(bit ports 0 && hwCodes.contains code) },
     { off := o + 1, ok := decide (t.b (o + 1) ≤ 7) }, { off := o + 2, ok := decide (t.b (o + 2) ≤ 15) },
     { off := o + 3, ok := if blk then decide (1 ≤ l) && decide (l ≤ 32) else l == 1 || l == 2 || l == 4 },
     { off := o + 4, ok := a % (if blk then 4 else max 1 l) == 0 && (decide (a < 0xF0000) || inData a 1) },
     { off := o + 8, ok := decide (t.b (o + 8) ≤ 2) }] ++ zeroChecks t.b (o + 10) 2

/-- DRAFT_MAP (R113). -/
def draftChecks (t : TblBytes) (len : Nat) : List TblCheck :=
  countChecks t len 1 256 4 ++ (List.range (t.h 16)).flatMap fun i =>
    let o := 20 + 4 * i
    let again := (List.range i).any fun j => t.h (20 + 4 * j) == t.h o
    [{ off := o, ok := decide (t.b o ≤ 31) && !again }, { off := o + 3, ok := decide (t.b (o + 3) ≤ 1) }]

/-- Offsets of the records of a LOG_LAYOUT, if they end exactly at its length (R425 step 6). -/
def layoutRecs (t : TblBytes) (len : Nat) : Nat → Nat → Option (List Nat)
  | 0, o => if o = len then some [] else none
  | fuel + 1, o => if o = len then some [] else if len < o + 4 then none else (layoutRecs t len fuel (o + 4 + 4 * t.b (o + 2))).map (o :: ·)

/-- LOG_LAYOUT (R114). -/
def layoutChecks (t : TblBytes) (len : Nat) : List TblCheck :=
  match layoutRecs t len (len / 4) 16 with
  | none => [{ off := 4, ok := false, res := 2 }]
  | some rs => rs.flatMap fun o =>
    let again := rs.any fun p => decide (p < o) && t.h p == t.h o
    [{ off := o, ok := decide (0xB00 ≤ t.h o) && decide (t.h o ≤ 0xFFF) && !again },
     { off := o + 2, ok := decide (1 ≤ t.b (o + 2)) && decide (t.b (o + 2) ≤ 64), res := 3 }, { off := o + 3, ok := t.b (o + 3) == 0 }] ++
    (List.range (t.b (o + 2))).flatMap fun k =>
      let q := o + 4 + 4 * k
      [{ off := q + 2, ok := decide (1 ≤ t.b (q + 2)) && decide (t.b (q + 2) ≤ 32) }, { off := q + 3, ok := decide (t.b (q + 3) ≤ 5) }]

/-! ### Validation (R94-R99, R425) -/

/-- Protected ranges: installed tables, the job's, and those that wait for the commit (R97). -/
def State.protRanges (s : State) : List (Nat × Nat) :=
  s.seq.tbls.map (fun t => (t.addr, t.len)) ++ (s.seq.job.toList.map fun j => (j.addr, j.len)) ++
  s.seq.pend.filterMap fun p => match p.1 with | .install j => some (j.addr, j.len) | .remove _ _ => none

/-- A store of `n` bytes at `a` would touch a protected range (R97). -/
def State.protHit (s : State) (a n : Nat) : Bool := touches s.protRanges a n

/-- Bytes as validation reads them: those of an uncorrectable word are 0 (01 R30). -/
def State.readBytes (s : State) (a n : Nat) : List Byte :=
  (List.range n).map fun i => if sget s.ecc ((a + i) - (a + i) % 4) = some .uncorr then 0 else s.byte (a + i)

/-- Bytes of the table at `a`: its length field, if the header lies in data SRAM and the length is one that R94 allows. -/
def State.tblLen (s : State) (a : Nat) : Nat :=
  if inData a 16 then (let n := leNat (s.readBytes (a + 4) 4); if 16 ≤ n ∧ n ≤ 65536 then min n (0x280000 - a) else 16) else 0

/-- The words of the table at `a` that validation reads: the header, then all of it. -/
def State.tblWords (s : State) (a : Nat) : List Nat :=
  if a % 4 == 0 && inData a 16 then (List.range ((s.tblLen a + 3) / 4)).map fun i => a + 4 * i else []

/-- The whole validation of the table at `a` (R425): result and offset of the first failing byte; `none`: it passes. -/
def State.tblCheck (s : State) (a : Nat) : Option (Nat × Nat) :=
  let h : TblBytes := { mem := s.readBytes a 16 }
  let len := (h.w 4).toNat
  let first := firstFail [{ off := 0, ok := a % 4 == 0 && inData a 16 }]
  let second := firstFail [
    { off := 0, ok := (maxId (h.b 0)).isSome, res := 2 }, { off := 1, ok := decide (h.b 1 ≤ (maxId (h.b 0)).getD 0), res := 2 },
    { off := 4, ok := len % 4 == 0 && decide (16 ≤ len) && decide (len ≤ 65536), res := 2 }, { off := 4, ok := inData a len }]
  if first.isSome then first
  else if second.isSome then second
  else
    let bs := s.readBytes a len
    let t : TblBytes := { mem := bs }
    let body := match t.b 0 with
      | 1 => machineChecks s.protRanges t len
      | 2 => curveChecks t len
      | 3 => pmbusChecks t len
      | 4 => layoutChecks t len
      | _ => draftChecks t len
    firstFail ([{ off := 8, ok := crc32 (bs.drop 16) == t.w 8, res := 1 }] ++ zeroChecks t.b 12 4 ++ body)

/-- Machine `j` enters its initial state; timers and event bits clear (R100). -/
def State.modMach (s : State) (j : Fin 64) (f : MachSt → MachSt) : State := { s with seq := { s.seq with mach := upd s.seq.mach j f } }
def State.clearTimers (s : State) (j : Fin 64) : State :=
  { s with seq := { s.seq with tmr := (s.seq.tmr.set (2 * j.val) {}).set (2 * j.val + 1) {} } }

/-- The table at `a` is installed and replaces one of its type and id (R98, R100); the entries of a new DRAFT_MAP have had no frame
(08 R197). -/
def State.installTbl (s : State) (j : InstJob) : State :=
  let typ : BitVec 3 := (s.byte j.addr).setWidth 3
  let id := s.byte (j.addr + 1)
  let ver : Half := BitVec.ofNat 16 (leNat (s.bytes (j.addr + 2) 2))
  let had := (s.table typ id.toNat).isSome
  let t : Tbl := { typ := typ, id := id, addr := j.addr, len := j.len, version := ver }
  let s : State := { s with seq := { s.seq with result := 0, tbls := (s.seq.tbls.filter fun t => !(t.typ = typ && t.id = id)) ++ [t] } }
  let s : State := if typ = 1 then
      let m : Fin 64 := idx id.toNat
      if had && j.keep && decide (s.seq.mach[m].state.toNat < (s.byte (j.addr + 16)).toNat) then s
      else (s.clearTimers m).modMach m fun k => { k with state := (s.byte (j.addr + 17)).setWidth 5, ev := 0 }
    else if typ = 5 then { s with dft := { s.dft with maps := [] } }
    else s
  s.dev 0x040 2 [nw typ.toNat, id.setWidth 32, ver.setWidth 32, nw j.addr]

/-- Event 0x041 and the result of a table that fails. A header that does not lie in data SRAM names no type and no id (notes/assumptions/9.md, 50.md). -/
def State.refuseTbl (s : State) (a res off : Nat) : State :=
  let s : State := { s with seq := { s.seq with result := BitVec.ofNat 4 res } }
  if inData a 16 then s.dev 0x041 5 ((s.readBytes a 2).map (fun b => b.setWidth 32) ++ [nw res, nw off])
  else
    let c := s.freeCtr
    s.drawn.drawn.dev 0x041 5 [Config.freeWord c, Config.freeWord (c + 1), nw res, nw off]

/-- SEQ_INST_GO (R96, R97). -/
def State.seqGo (s : State) (keep : Bool) : State :=
  if s.seq.job.isSome then { s with seq := { s.seq with result := 6 } }
  else
    let a := (s.reg 0xE0000).toNat
    { s with seq := { s.seq with job := some { addr := a, len := s.tblLen a, keep := keep } } }

/-- SEQ_INST_REMOVE (R100, R425) (notes/assumptions/50.md). -/
def State.seqRemove (s : State) (typ : BitVec 3) (id : Byte) : State :=
  let res (r : BitVec 4) : State := { s with seq := { s.seq with result := r } }
  if s.seq.job.isSome then res 6
  else match maxId typ.toNat with
    | none => res 2
    | some m =>
      if m < id.toNat then res 2
      else if (s.table typ id.toNat).isNone then res 8
      else { s with seq := { s.seq with pend := s.seq.pend ++ [(.remove typ id, false)] } }

/-- TABLE_VALIDATION_DONE (R98, R425). -/
def State.seqValidated (s : State) : State :=
  match s.seq.job with
  | none => s
  | some j =>
    let s0 : State := ({ s with seq := { s.seq with job := none } } : State).readAll (Config.codeOf 0x019 1 8) (s.tblWords j.addr) |>.1
    -- the job's own range is protected while its actions are checked
    match s.tblCheck j.addr with
    | some (r, o) => s0.refuseTbl j.addr r o
    | none => { s0 with seq := { s0.seq with pend := s0.seq.pend ++ [(.install j, false)] } }

/-- At the commit, what waits is due (R98, R100) (notes/assumptions/50.md). -/
def State.seqCommit (s : State) : State := { s with seq := { s.seq with pend := s.seq.pend.map fun p => (p.1, true) } }

/-- The first entry that is due and meets `f`, and the others. -/
def takeDue (f : SeqPend → Bool) : List (SeqPend × Bool) → Option (SeqPend × List (SeqPend × Bool))
  | [] => none
  | p :: ps => if p.2 && f p.1 then some (p.1, ps) else (takeDue f ps).map fun q => (q.1, p :: q.2)

/-- TABLE_INSTALLED: the oldest installation due takes effect (R98) (notes/assumptions/50.md). -/
def State.seqInstall (s : State) : State :=
  match takeDue (fun p => match p with | .install _ => true | .remove _ _ => false) s.seq.pend with
  | some (.install j, ps) => State.installTbl { s with seq := { s.seq with pend := ps } } j
  | _ => s

/-- An enabled context with sched_en = 1 names the curve in its active descriptor (R100). -/
def State.curveUsed (s : State) (id : Nat) : Bool :=
  (fins 128).any fun x =>
    let c := s.reg (descAddr x.val 0)
    let m := s.reg (descAddr x.val 21)
    decide (x.val < s.nCtx) && bit c 31 && !bit c 30 && bit c 27 && fld m 0 8 == id

/-- TABLE_REMOVED: the oldest removal due is decided (R100) (notes/assumptions/50.md). -/
def State.seqRemoved (s : State) : State :=
  match takeDue (fun p => match p with | .install _ => false | .remove _ _ => true) s.seq.pend with
  | some (.remove typ id, ps) =>
    let s : State := { s with seq := { s.seq with pend := ps } }
    match s.table typ id.toNat with
    | none => { s with seq := { s.seq with result := 8 } }
    | some t =>
      if typ = 2 ∧ s.curveUsed id.toNat = true then { s with seq := { s.seq with result := 7 } }
      else
        let s : State := { s with seq := { s.seq with result := 0, tbls := s.seq.tbls.filter fun t => !(t.typ = typ && t.id = id) } }
        let s := if typ = 1 then s.clearTimers (idx id.toNat) else s
        s.dev 0x040 2 [nw typ.toNat, id.setWidth 32, t.version.setWidth 32, nw t.addr]
  | _ => s

/-! ### Events and timers (R108, R109) -/

/-- The sequencer of a standby is halted (01 R37), and goes on from the tick after a handover (17 R363). -/
def State.seqHalted (s : State) : Bool := s.yetHalted

/-- SEQ_MEVSET (R109). -/
def State.mevSet (s : State) (j : Fin 64) (v : Half) : State := s.modMach j fun m => { m with ev := m.ev ||| v }

def State.modTmr (s : State) (i : Fin 128) (f : TimerSt → TimerSt) : State := { s with seq := { s.seq with tmr := upd s.seq.tmr i f } }

/-- A timer's expiry (R108). -/
def State.tmrFire (s : State) (i : Fin 128) : State := (s.modTmr i fun t => { t with run := false, exp := true, left := 0 }).evp 9

/-- SEQ_TIMER_EXPIRE. -/
def State.tmrExpire (s : State) (i : Fin 128) : State :=
  let t := s.seq.tmr[i]
  if t.run && !s.seqHalted && (if t.unit then t.left == 0 else decide (t.stop ≤ s.now)) then s.tmrFire i else s

/-- Slow-frame timers advance at a boundary (01 R28). -/
def State.tmrSlow (s : State) : State :=
  if s.seqHalted then s
  else { s with seq := { s.seq with tmr := s.seq.tmr.map fun t => if t.run && t.unit then { t with left := t.left - 1 } else t } }

/-- TSTART of timer `i` with length `len` (R108): a length of 0 expires it at once (notes/assumptions/50.md). -/
def State.tmrStart (s : State) (i : Fin 128) (slow : Bool) (len : Nat) : State :=
  let s := s.modTmr i fun _ => { run := true, unit := slow, exp := false, stop := s.now + len, left := len }
  if len = 0 then s.tmrFire i else s

/-- TSTOP (R103). -/
def State.tmrStop (s : State) (i : Fin 128) : State := s.modTmr i fun t => { t with run := false, exp := false, left := 0 }

/-! ### Registers -/

def State.seqRead (s : State) (o : Nat) : Word :=
  if o = 8 then bw s.seq.job.isSome 31 ||| bw (!s.seq.pend.isEmpty) 8 ||| at_ s.seq.result 0
  else if 0x100 ≤ o ∧ o < 0x200 then
    let j : Fin 64 := idx ((o - 0x100) / 4)
    let m := s.seq.mach[j]
    bw (s.table 1 j.val).isSome 31 ||| bw m.fault 30 ||| at_ m.state 0
  else if 0x200 ≤ o ∧ o < 0x300 then at_ s.seq.mach[(idx ((o - 0x200) / 4) : Fin 64)].ev 0
  else if 0x400 ≤ o ∧ o < 0x600 then
    let t := s.seq.tmr[(idx ((o - 0x400) / 4) : Fin 128)]
    bw t.run 31 ||| bw t.unit 30 ||| bw t.exp 29 ||| nw ((if !t.run then 0 else if t.unit then t.left else t.stop - s.now) % 2 ^ 24)
  else 0

def State.seqWrite (s : State) (o : Nat) (v : Word) : State :=
  if o = 4 then
    (if !bit v 31 then s else if bit v 17 then s.seqRemove (bits v 0 3) (bits v 8 8) else s.seqGo (bit v 16))
  else if 0x100 ≤ o ∧ o < 0x200 then (if bit v 30 then s.modMach (idx ((o - 0x100) / 4)) fun m => { m with fault := false } else s)
  else if 0x300 ≤ o ∧ o < 0x400 then s.mevSet (idx ((o - 0x300) / 4)) (bits v 0 16)
  else s

end Sys2Proof.Machine
end

