-- ==== Sys2Proof/Machine/Sys.lean ====
section
/-! DEFINITION. The system block: roles, the damper release, the safe state and the watchdog (03 R85-R92, 17 R361), clock and
time (01 R32-R36, 02 R45-R52), power states (19 R401-R403), SYS status words. -/

namespace Sys2Proof.Machine

/-- The roles in which the Stoker runs (03 R92, 01 R37). -/
def State.runRole (s : State) : Bool := s.pr.role == .unpaired || s.pr.role == .active || s.pr.role == .witness

def Role.code : Role → BitVec 3
  | .unpaired => 0 | .active => 1 | .syncing => 2 | .synced => 3 | .failed => 4 | .witness => 5

/-- PAIR_STAT.role changes; event 0xA00 with kind pair (notes/assumptions/12.md). -/
def State.setRole (s : State) (r : Role) (cause : Nat) : State :=
  ({ s with pr := { s.pr with role := r } }).dev 0xA00 3
    [Config.codeOf 0xA00 0 0, (s.pr.role.code).setWidth 32, r.code.setWidth 32, Config.codeOf 0xA00 3 cause]

/-- The outputs are held from the next strobe on (03 R87 "Freeze") (notes/assumptions/31.md). -/
def State.holdOutputs (s : State) : State :=
  { s with fbx := { s.fbx with freezeFrom := some (match s.fbx.freezeFrom with | some t => min t (s.now + 1) | none => s.now + 1) } }

/-- An active releases its damper line (17 R361): outputs held, FAULT from the next cycle 0, role failed until reset. -/
def State.pairRelease (s : State) (cause : Nat) : State :=
  if s.pr.role = .active then
    let s : State := s.holdOutputs.twiRelease.setRole .failed cause
    ({ s with pr := { s.pr with faultOut := true, gateOpen := false } }).evp 11
  else s

/-! ### Safe state and watchdog -/

/-- The action of the safe state (R87): 0 freeze, 1 soft stop, 2 hard stop. -/
def State.safeAction (s : State) : Nat := min 2 (fld (s.reg 0x60) 8 2)

/-- The safe state is taken (R86-R88): the Stoker's thread F is halted; a paired active holds its outputs and releases its
damper line, any other controller carries out safe_action. -/
def State.takeSafe (s : State) : State :=
  if s.stk.safe then s
  else
    let s : State := { s with stk := { s.stk with safe := true, fHalted := true, fLive := false } }
    if s.pr.role = .active then s.pairRelease 0
    else match s.safeAction with
      | 0 => s.holdOutputs
      | 1 => { s with stk := { s.stk with softDue := true } }
      | _ => { s with stk := { s.stk with hardDue := true } }

/-- The hard stop of the safe state at cycle 540 (R87, 07 R181). -/
def State.hardStop (s : State) : State :=
  if s.stk.hardDue then State.stopAll { s with stk := { s.stk with hardDue := false } } 6 else s

/-- The watchdog's period (R89; 0 acts as 1). -/
def State.wdogPeriod (s : State) : Nat := max 1 (fld (s.reg 0x68) 0 8)

/-- A write of SYS_WDOG (03): en sticks, period is locked while en is 1, writing en = 1 loads the counter (R89). `load`: the
bytes written hold en (notes/assumptions/24.md). -/
def State.wdogWrite (s : State) (v : Word) (load : Bool) : State :=
  let old := s.reg 0x68
  let locked := bit old 31
  let period : Word := if locked then old &&& 0xFF else v &&& 0xFF
  let s := if locked && (v &&& 0xFF) != (old &&& 0xFF) then s.flagErr errLocked 0x68 else s
  let s := s.setReg 0x68 (period ||| bw (locked || bit v 31) 31)
  if load && bit v 31 then { s with stk := { s.stk with wdogCnt := s.wdogPeriod } } else s

/-- WDKICK (R89, R91). -/
def State.wdogKick (s : State) : State := { s with stk := { s.stk with wdogCnt := s.wdogPeriod } }

/-- The decrement at a slow-frame boundary (R89, R92). -/
def State.wdogSlow (s : State) : State :=
  if bit (s.reg 0x68) 31 && s.runRole && decide (0 < s.stk.wdogCnt) then
    let n := s.stk.wdogCnt - 1
    { s with stk := { s.stk with wdogCnt := n, wdogDue := s.stk.wdogDue || n == 0 } }
  else s

/-- WDOG_EXPIRED (R90) (notes/assumptions/1.md). -/
def State.wdogExpired (s : State) : State :=
  if s.stk.wdogDue then
    let s : State := { s with stk := { s.stk with wdogDue := false, wdogExp := true } }
    (s.dev 0x035 7 []).takeSafe
  else s

/-- A write of SYS_FRAME_CFG (03): lock sticks; ovr_limit and safe_action are locked while it is set. -/
def State.frameCfgWrite (s : State) (v : Word) : State :=
  let old := s.reg 0x60
  let lk : Word := 0x00FF0300
  let locked := bit old 31
  let s := if locked && (v &&& lk) != (old &&& lk) then s.flagErr errLocked 0x60 else s
  s.setReg 0x60 ((if locked then old &&& lk else v &&& lk) ||| (v &&& 1) ||| bw (locked || bit v 31) 31)

/-! ### Clock (01 R32-R35) -/

def State.timeRole (s : State) : Nat := fld (s.reg 0x48) 0 2
def State.parentPort (s : State) : Fin 4 := idx (fld (s.reg 0x48) 4 2)
def State.modTime (s : State) (f : TimeSt → TimeSt) : State := { s with time := f s.time }

def State.clkCfg (s : State) : Word := s.reg 0x40
/-- SYS_CLK_CFG.src asks for link mode; up_port. -/
def State.srcLink (s : State) : Bool := fld s.clkCfg 0 2 == 1
def State.upPort (s : State) : Fin 4 := idx (fld s.clkCfg 8 2)

/-- The follower role without link mode on the parent port (02 R48). -/
def State.timeCfgErr (s : State) : Bool :=
  s.timeRole == 1 && !(s.clk.mode && s.srcLink && s.upPort == s.parentPort && s.clk.port.toNat == s.parentPort.val)

/-- The controller takes time from a parent; else it ignores TIME messages (02 R48). -/
def State.isFollower (s : State) : Bool := s.timeRole == 1 && !s.timeCfgErr

/-- SYS_TIME_STAT.free_run. -/
def State.freeRun (s : State) : Bool := s.time.freeRun || !s.isFollower

/-- Holdover has run out: the held control word stays until reset (R35 item 4). -/
def State.holdoverOver (s : State) : Bool := s.clk.holdover && s.clk.holdStart.isNone

/-- The elapsed tick since which the port named by up_port has held a valid character stream. -/
def State.upLock (s : State) : Option Nat := if s.upPort.val < s.nPorts then s.link.port[s.upPort].lockAt else none

/-- The PLL changes to link mode, and following the parent starts anew where the role asks for it (R32, 02 R48). -/
def State.enterLink (s : State) : State :=
  let s : State := { s with clk := { s.clk with
    mode := true, port := BitVec.ofNat 2 s.upPort.val, holdover := false, holdStart := none, fell := false } }
  if s.isFollower then s.modTime fun t => { t with freeRun := false, lastTime := s.now, lockRun := 0 } else s

/-- The boot path has ended: the controller runs, or is halted without an image (19 R392, R398). -/
def State.booted (s : State) : Bool := s.boot.stage == .done || s.boot.stage == .halted

/-- Whether the PLL may leave reference mode for the link: not while the controller boots (R32, 19 R392) (notes/assumptions/48.md). -/
def State.linkAsked (s : State) : Bool := s.srcLink && !s.clk.mode && s.clk.pllLock && s.booted && !s.holdoverOver

/-- LINK_MODE_ENTER (R32): src has been set to 1, and the port has locked to a valid character stream (notes/assumptions/48.md). -/
def State.linkEnter (s : State) : State := if s.linkAsked && !s.clk.fell && s.upLock.isSome then s.enterLink else s

/-- LINK_MODE_RETURN (02 R52): the port has held a valid character stream for 64 consecutive ticks since link mode was left
(notes/assumptions/48.md). -/
def State.linkReturn (s : State) : State :=
  if s.linkAsked && s.clk.fell && (match s.upLock with | some t => decide (max t (s.clk.fellAt + 1) + 63 ≤ s.now) | none => false) then s.enterLink else s

/-- The PLL enters holdover (R34); once holdover has run out it stays so until reset (R35). -/
def State.enterHoldover (s : State) : State :=
  if s.holdoverOver then s else { s with clk := { s.clk with holdover := true, holdStart := some s.now } }

/-- Back to reference mode; without REFCLK the PLL holds its control word. -/
def State.refMode (s : State) : State :=
  let s : State := { s with clk := { s.clk with mode := false } }
  if s.clk.refOk then s else s.enterHoldover

/-- LINK_CLK_LOST (R33). -/
def State.linkClkLost (s : State) : State :=
  if s.clk.mode then (({ s with clk := { s.clk with linkLost := true, fell := true, fellAt := s.now } }).dev 0x013 5 []).refMode else s

/-- REFCLK_LOST (R34, 17 R361) (notes/assumptions/48.md). -/
def State.refclkLost (s : State) : State :=
  if s.clk.refOk then
    let s := ({ s with clk := { s.clk with refOk := false, refLost := true } }).dev 0x010 7 []
    if s.clk.mode then s else s.enterHoldover.pairRelease 2
  else s

def State.setClk (s : State) (f : ClkSt → ClkSt) : State := { s with clk := f s.clk }

/-- HOLDOVER_EXP (R35) (notes/assumptions/1.md, 48.md). -/
def State.holdoverExp (s : State) : State :=
  match s.clk.holdStart with
  | some t =>
    if t + 10000 ≤ s.now then ((s.stopAll 7).dev 0x012 7 []).setClk fun c => { c with holdoverExp := true, holdStart := none } else s
  | none => s

/-- REFCLK_BACK (R35): a holdover that has lasted its 10,000 ticks has expired first (R6), and the held control word then stays until
reset (notes/assumptions/48.md). -/
def State.refclkBack (s : State) : State :=
  if s.clk.refOk then s
  else
    let s : State := s.holdoverExp.setClk fun c => { c with refOk := true }
    if s.clk.holdover && s.clk.holdStart.isSome then ({ s with clk := { s.clk with holdover := false, holdStart := none } }).dev 0x011 4 [] else s

/-- A configuration write changes whether the controller follows (02 R48): the start of following opens the window of R51, and a
controller that no longer follows runs as free, which is no loss of time. -/
def State.followsFrom (s : State) (was : Bool) : State :=
  if s.isFollower then (if was then s else s.modTime fun t => { t with freeRun := false, lastTime := s.now, lockRun := 0 })
  else if was ∨ s.timeRole ≠ 1 then
    s.modTime fun t => { t with locked := false, slewing := false, countMismatch := false, stepPend := false, lockRun := 0, freeRun := true }
  else s

/-- A write of SYS_CLK_CFG: leaving src = 1 or the port followed in link mode returns the PLL to reference mode. -/
def State.clkCfgWrite (s : State) (v : Word) : State :=
  let was := s.isFollower
  let port := s.upPort
  let s := s.setReg 0x40 (v &&& 0x00000303)
  let s : State := if s.srcLink && s.upPort == port then s else { s with clk := { s.clk with fell := false } }
  let s := if s.clk.mode && (!s.srcLink || s.upPort.val != s.clk.port.toNat) then s.refMode else s
  s.followsFrom was

/-- A write of SYS_TIME_CFG: another parent or role ends the following that went on (R48); the hop delay is that of the parent port
(16 R340). -/
def State.timeCfgWrite (s : State) (v : Word) : State :=
  let was := s.isFollower
  let port := s.parentPort
  let s := s.setReg 0x48 (v &&& 0x00000033)
  let s := if s.parentPort = port then s else s.modTime fun t => { t with hopDly := s.link.port[s.parentPort].dly }
  s.followsFrom (was && s.parentPort == port)

/-! ### Time (02 R45-R52) -/

/-- Parent time minus own time in ps (R340, 02 R52): the SYNC frame left at cycle 540 of the parent's tick `ptick`, and arrived
`late` ps after cycle 540 of the own tick `otick` (notes/assumptions/47.md). -/
def syncOfs (ptick otick : BitVec 48) (late : Int) (dly : Nat) : Int := (ptick - otick).toInt * 1000000 - late + dly

/-- N and r of an offset (R52): r lies in [-500 ns, +500 ns). -/
def ofsN (ofs : Int) : Int := (ofs + 500000).fdiv 1000000
def ofsR (ofs : Int) : Int := ofs - 1000000 * ofsN ofs

/-- The parent's epoch at its TICK `t`, from the epoch `e` that goes with its TICK `pt`: wraps between the two count (R46). -/
def epochAt (e : BitVec 16) (pt t : BitVec 48) : BitVec 16 :=
  BitVec.ofInt 16 (((e.toNat * 2 ^ 48 + pt.toNat : Nat) + (t - pt).toInt).fdiv (2 ^ 48))

/-- The epoch in force changes: record 0x050 follows (R46, 12 R265). -/
def State.takeEpoch (s : State) (e : BitVec 16) : State :=
  if s.time.epoch = e then s else (s.modTime fun t => { t with epoch := e }).postEpoch

/-- TIME_LOST (R51): 0 the recovered clock failed, 1 the port lost character lock, 2 no valid TIME message in 64 ticks; only of a
controller that has been following since a configuration write or a TIME update (`freeRun` is false from then on). -/
def State.timeLose (s : State) (cause : Fin 3) : State :=
  let due := match cause with
    | 0 => !s.clk.mode
    | 1 => match s.link.port[s.parentPort].lockAt with | none => true | some t => decide (s.time.lastTime < t)
    | 2 => decide (s.time.lastTime + 64 ≤ s.now)
  if s.timeRole = 1 ∧ s.time.freeRun = false ∧ due = true then
    (s.modTime fun t => { t with locked := false, freeRun := true, timeLost := true, slewing := false, lockRun := 0 }).dev 0x020 4 [Config.codeOf 0x020 0 cause.val]
  else s

/-- SYNC (R49, R52, 16 R336, R340): a TIME update from the parent; every update with N ≠ 0 is logged, and from then on nothing is
corrected until a step. The 64 ticks without one have run out first (R6, R51) (notes/assumptions/9.md, 47.md). -/
def State.syncRx (s : State) (p : Fin 4) (ptick : BitVec 48) (pepoch : BitVec 16) (hops : BitVec 4) (otick : BitVec 48) (late : Int) : State :=
  let s := if s.portUp p then s.modPort p fun q => { q with syncAt := some s.now } else s
  if !(s.isFollower && p == s.parentPort && s.portUp p && decide (hops.toNat < 8)) then s
  else
    let s := s.timeLose 2
    let ofs := syncOfs ptick otick late s.time.hopDly.toNat
    let n := ofsN ofs
    let off := decide (n ≠ 0) || s.time.countMismatch
    let fits := decide (-2147483648 ≤ ofs) && decide (ofs ≤ 2147483647)
    let w : Word := if fits then iw ofs else Config.freeWord s.freeCtr
    let s := if fits then s else s.drawn
    let run := if ofs.natAbs ≤ 3000 then s.time.lockRun + 1 else 0
    let lockNow := !off && !s.time.locked && decide (64 ≤ run)
    let locked := if 6000 < ofs.natAbs then false else s.time.locked || lockNow
    let s := s.modTime fun t => { t with
      ofs := w, hops := hops + 1, ofsN := n, ofsR := ofsR ofs, parEpoch := pepoch, parTick := ptick, lastTime := s.now, freeRun := false, lockRun := run, locked := locked,
      countMismatch := off, slewing := !off && !locked }
    let s := if lockNow then s.dev 0x021 2 [(hops + 1).setWidth 32, w] else s
    if n ≠ 0 then s.dev 0x023 5 [iw n] else if off then s else s.takeEpoch (epochAt pepoch ptick s.time.tick)

/-- SYS_TIME_CMD.step (R52): follower only (notes/assumptions/47.md). -/
def State.stepReq (s : State) : State := if s.isFollower then s.modTime fun t => { t with stepPend := true } else s

/-- SYS_TIME_CMD.set_epoch (R46): root only (notes/assumptions/47.md). -/
def State.epochSetReq (s : State) (e : BitVec 16) : State := if s.timeRole = 2 then s.modTime fun t => { t with epochReq := some e } else s

/-- TIME_STEP (R52): at cycle 0 of the tick that begins the parent's next slow frame (notes/assumptions/47.md). -/
def State.timeStep (s : State) : State :=
  let new : BitVec 48 := s.time.tick + BitVec.ofInt 48 s.time.ofsN
  if s.time.stepPend && s.isFollower && s.cycle == 0 && new.toNat % 1024 == 0 then
    let old := s.time.tick
    ((s.modTime fun t => { t with tick := new, countMismatch := false, stepPend := false, slewing := true, ofsN := 0, sfDue := true }).dev
      0x022 5 (tickWords old ++ tickWords new)).takeEpoch (epochAt s.time.parEpoch s.time.parTick new)
  else s

/-- TICK_WRAP (R46, 12 R265): in cycle 0 of the tick whose TICK is 0 (notes/assumptions/17.md). -/
def State.tickWrap (s : State) : State :=
  if s.time.wrapDue && s.cycle == 0 then (s.modTime fun t => { t with wrapDue := false, epoch := t.epoch + 1 }).postEpoch else s

/-- EPOCH_SET (R46, 12 R265): at a slow-frame boundary. -/
def State.epochSet (s : State) : State :=
  match s.time.epochReq with
  | some e =>
    if s.cycle = 0 ∧ (s.time.sf || s.time.sfDue) = true then
      ((s.modTime fun t => { t with epoch := e, epochReq := none }).dev 0x024 4 [s.time.epoch.setWidth 32, e.setWidth 32]).postEpoch
    else s
  | none => s

/-- A read of SYS_TICK_LO (R45). -/
def State.tickLo (s : State) (ini : Initiator) : State × Word :=
  let hi : Word := ((s.time.tick >>> 32).setWidth 16 : Half).setWidth 32 ||| s.time.epoch.setWidth 32 <<< 16
  ({ s with sys := { s.sys with tickHi := s.sys.tickHi.set (idx (iniNum ini) : Fin 4) hi } }, s.time.tick.setWidth 32)

/-! ### Power states (19 R401-R403) -/

/-- SYS_PWR_CMD (R402) (notes/assumptions/49.md). -/
def State.pwrReq (s : State) (st : BitVec 2) (a : Nat) : State :=
  if s.pwr.busy then s.flagErr errLocked a else { s with pwr := { s.pwr with req := some (st, s.now), reqAt := a } }

/-- The state changes: event 0x064. -/
def State.setPwr (s : State) (st : BitVec 2) (wake : Byte) : State :=
  ({ s with pwr := { s.pwr with state := st } }).dev 0x064 2 [s.pwr.state.setWidth 32, st.setWidth 32, wake.setWidth 32]

/-- SLEEP and SHIP: Firebox and thread F halted with outputs held, front end off, the thermal converter off with its queue held,
two-wire ports asleep (R401) (notes/assumptions/49.md). DESIGN CHOICE: FBX_STAT.halted reads 1 then too (notes/assumptions/31.md). -/
def State.unitsOff (s : State) : State :=
  { s with fbx := { s.fbx with halted := true }, sns := { s.sns with raw := Vector.replicate 96 0, sample := Vector.replicate 96 0, val := Vector.replicate 96 0 },
           twi := s.twi.map fun t => { t with asleep := true },
           thm := { s.thm with stop := none }, stk := { s.stk with bGated := true, fLive := false } }

/-- SLEEP ends: the units run again. -/
def State.unitsOn (s : State) : State :=
  { s with fbx := { s.fbx with halted := s.inStandby }, stk := { s.stk with bGated := false } }

/-- POWER_STATE (R402): the request of the tick before is applied or refused at cycle 0 (notes/assumptions/49.md). -/
def State.pwrApply (s : State) : State :=
  match s.pwr.req with
  | none => s
  | some (st, t) =>
    if !(s.cycle == 0 && decide (t < s.now)) then s
    else
      let wake := s.pwr.wakeDue
      let s : State := { s with pwr := { s.pwr with req := none, wakeDue := 0 } }
      let railsOff := (fins 16).all fun g => s.phs.rail[g].state == .off || s.phs.rail[g].state == .latched
      let unpaired := s.pr.role == .unpaired
      if s.pwr.busy then s.flagErr errLocked s.pwr.reqAt
      else match s.pwr.state, st with
        | 0, 1 => if railsOff then s.setPwr 1 0 else s.flagErr errLocked s.pwr.reqAt
        | 1, 0 => { s with pwr := { s.pwr with busy := true, settleEnd := s.now + 20 } }
        | 1, 2 =>
          if !(unpaired && s.nvm.cur.isNone && s.nvWaiting.isEmpty) then s.flagErr errLocked s.pwr.reqAt
          else if wake ≠ 0 then { s with pwr := { s.pwr with wake := wake } }
          else
            let n := fld (s.reg 0x90) 16 16
            let s := s.setPwr 2 0
            State.unitsOff { s with pwr := { s.pwr with sfLeft := if n ≠ 0 ∧ bit (s.reg 0x90) 7 = true then some n else none } }
        | 1, 3 => if !s.bat.ship || !unpaired then s.flagErr errLocked s.pwr.reqAt else (s.setPwr 3 0).unitsOff.twiRelease
        | _, _ => s.flagErr errLocked s.pwr.reqAt

/-- ANALOG_SETTLED (R402) (notes/assumptions/49.md). -/
def State.settled (s : State) : State :=
  if s.pwr.busy && decide (s.pwr.settleEnd ≤ s.now) then State.setPwr { s with pwr := { s.pwr with busy := false } } 0 0 else s

/-- The event bit that matches a wake source (R403, 03 R80): host for TWI0 and SPI, dft, stk, slow; pins and CHGDET have none. -/
def wakeBit (src : Nat) : Option Nat :=
  match src with
  | 0 | 1 => some 10
  | 5 => some 6
  | 6 => some 4
  | 7 => some 1
  | _ => none

/-- SLEEP_WAKE (R403): at cycle 0 of the tick after the detection. No row stands for a comma on a Stack port (source 6), so the
event itself is that detection (notes/assumptions/49.md). -/
def State.sleepWake (s : State) (src : Fin 8) : State :=
  if s.pwr.state = 2 ∧ s.cycle = 0 ∧ bit (s.reg 0x90) src.val = true ∧ (bit s.pwr.wakeDue src.val || src.val == 6) = true then
    let all : Byte := s.pwr.wakeDue ||| (1 : Byte) <<< src.val
    let s := (s.setPwr 1 all).unitsOn
    let s : State := { s with pwr := { s.pwr with wake := all, wakeDue := 0, sfLeft := none } }
    (List.range 8).foldl (fun (s : State) b =>
      if bit all b then (match wakeBit b with | some e => s.evp e | none => s) else s) s
  else s

/-- The timed wake at a slow-frame boundary (R403). -/
def State.pwrSlow (s : State) : State :=
  match s.pwr.sfLeft with
  | some n =>
    let s : State := { s with pwr := { s.pwr with sfLeft := some (n - 1) } }
    if n ≤ 1 then s.wakeSeen 7 else s
  | none => s

/-- Cycle 0: detections of the tick before become due; the pins are watched. -/
def State.pwrTick (s : State) : State :=
  let s : State := { s with pwr := { s.pwr with wakeDue := if s.pwr.state = 2 ∨ s.pwr.req.isSome then s.pwr.wakeDue ||| s.pwr.wakeNew else 0, wakeNew := 0 } }
  let s := if s.pins.acfail ≠ 0 then s.wakeSeen 2 else s
  let s := if s.pins.pfail then s.wakeSeen 3 else s
  if s.pins.chgdet then s.wakeSeen 4 else s

/-! ### Registers -/

/-- SYS_UNITS (R14). -/
def State.sysUnits (s : State) : Word := 0x00006FEF ||| bw s.hasPair 12 ||| bw (s.nStrings != 0) 4

/-- FAULT_N: asserted in holdover (R34) and in the halt without an image (19 R398). -/
def State.faultN (s : State) : Bool := s.clk.holdover || s.boot.halt

def State.sysStatus (s : State) : Word :=
  bw s.faultN 3 ||| bw s.anyHot 2 ||| bw ((List.range 15).any fun r => s.otp.region[(idx r : Fin 16)] == 3) 1 ||| bw (s.otp.cause != 0) 0

def State.frameStat (s : State) : Word :=
  let k := s.stk
  at_ k.ovrTotal 16 ||| at_ k.ovrConsec 8 ||| bw k.wdogExp 3 ||| bw (k.b == .halted) 2 ||| bw k.fDtrap 1 ||| bw k.safe 0

def State.clkStat (s : State) : Word :=
  let c := s.clk
  bw c.holdoverExp 10 ||| bw c.linkLost 9 ||| bw c.refLost 8 ||| at_ c.port 4 ||| bw c.holdover 3 ||| bw c.mode 2 ||| bw c.refOk 1 ||| bw c.pllLock 0

def State.timeStat (s : State) : Word :=
  let t := s.time
  at_ t.hops 8 ||| bw t.timeLost 6 ||| bw t.stepPend 5 ||| bw s.timeCfgErr 4 ||| bw t.countMismatch 3 ||| bw (t.slewing && s.isFollower) 2 ||| bw s.freeRun 1 ||| bw (t.locked && s.isFollower) 0

/-- Reads of SYS status registers but SYS_TICK_LO. -/
def State.sysRead (s : State) (ini : Initiator) (o : Nat) : Word :=
  if o = 0x08 then s.sysUnits
  else if o = 0x0C then s.sysStatus
  else if o = 0x10 then s.sys.err
  else if o = 0x14 then s.sys.errAddr
  else if o = 0x18 then bw s.sys.eccUncorr 31 ||| at_ s.sys.eccCorr 0
  else if o = 0x1C then s.sys.eccAddr
  else if o = 0x24 then s.sys.tickHi[(idx (iniNum ini) : Fin 4)]
  else if o = 0x44 then s.clkStat
  else if o = 0x4C then s.timeStat
  else if o = 0x50 then s.time.ofs
  else if o = 0x54 then s.time.hopDly
  else if o = 0x64 then s.frameStat
  else if o = 0x80 then at_ s.boot.cause 30 ||| at_ s.boot.sysCnt 0
  else if o = 0x88 then bw s.boot.halt 31 ||| bw s.boot.slot 30 ||| at_ s.boot.reasonA 24 ||| at_ s.boot.reasonB 20 ||| at_ s.boot.ticks 0
  else if o = 0x8C then s.boot.seq
  else if o = 0x98 then at_ s.pwr.state 30 ||| bw s.pwr.busy 29 ||| at_ s.pwr.wake 0
  else 0

end Sys2Proof.Machine
end

