-- ==== Sys2Proof/Machine/Link.lean ====
section
/-! DEFINITION. The Stack link: frames, credits, port states, messages, relay, time messages, stale imports, cluster role
(16_stack_link.md; 05 R132-R134; 08 R207; 18 R383). Classes of a queue: 0 CTRL, 1 EMB_RSP, 2 EMB_REQ, 3 LOG. -/

namespace Sys2Proof.Machine

/-- Port registers (R333, "Registers"). -/
def stkA (p : Nat) (o : Nat) : Nat := 0xB0100 + 0x20 * p + o
def State.stkEn (s : State) (p : Fin 4) : Bool := decide (p.val < s.nPorts) && bit (s.reg (stkA p.val 0)) 31

/-- Ports carry messages: not in a standby (01 R37), not once the damper is released (17 R361), not asleep (19 R401). -/
def State.stkLive (s : State) : Bool := !s.inStandby && s.pr.role != .failed && s.awake

/-! ### Queues -/

/-- A relayed message of types 0x10-0x21 waits for its frame; a newer one with the same destination, source and type replaces it (R336)
(notes/assumptions/45.md). -/
def putNewest (l : List Msg) (m : Msg) : List Msg :=
  if l.any fun o => mDest o == mDest m && mType o == mType m && mSrc o == mSrc m then
    l.map fun o => if mDest o == mDest m && mType o == mType m && mSrc o == mSrc m then m else o
  else l ++ [m]

/-- An own export waits for its frame in the place of its register: a newer one of the register replaces it (R339, 05 R133). -/
def putExport (l : List (Nat × Msg)) (e : Nat) (m : Msg) : List (Nat × Msg) :=
  if l.any fun o => o.1 == e then l.map fun o => if o.1 == e then (e, m) else o else l ++ [(e, m)]

def State.pushExp (s : State) (p : Fin 4) (e : Nat) (m : Msg) : State := s.modPort p fun q => { q with exps := putExport q.exps e m }

/-- The strobe's exports (05 R132, R133). -/
def State.queueExports (s : State) (rs : List (BitVec 16 × Word)) : State :=
  (List.range 16).foldl (fun (s : State) e =>
    let x := s.reg (0x10200 + 4 * e)
    if bit x 31 then
      let p : Fin 4 := idx (fld x 20 2)
      if s.portUp p then
        s.pushExp p e (mkMsg 1 (BitVec.ofNat 8 (0x10 + fld x 16 4)) (fld x 0 14) s.node (embPay (exportVal rs (2 * e)) (exportVal rs (2 * e + 1))))
      else s.dev 0x104 4 [nw e, nw p.val]
    else s) s

/-- The Draft forward that leaves in the frame of this tick on port `p` (08 R207): by the cluster role alone, from what is known when
the frame leaves (notes/assumptions/34.md). -/
def State.draftForward (s : State) (p : Fin 4) : State :=
  if s.standby then s
  else
    let cfg := s.reg 0xD00A0
    let s := s.formAhead
    match s.cluRole with
    | 1 =>
      if p.val = fld cfg 24 2 ∧ s.portUp p = true then
        let (P, S) := s.ownSums (s.now + 2)
        s.pushExp p 16 (mkMsg 1 0x20 (fld cfg 0 14) s.node (embPay P S))
      else s
    | 2 =>
      if bit cfg (16 + p.val) && s.portUp p then
        let v := ((s.dft.ahead.find? fun a => a.1 = s.now + 2).map (·.2)).getD 0
        s.pushExp p 17 (mkMsg 1 0x21 s.link.port[p].far.toNat s.node (embPay v ((s.tickAt (s.now + 2)).setWidth 32)))
      else s
    | _ => s

/-- Messages of a class that wait in the receive slots of a port (R336, R338): a request until its reply is queued, which a paired active
withholds (18 R383). -/
def State.rxHeld (s : State) (p c : Fin 4) : Nat :=
  let n (l : List (Fin 4 × Msg)) : Nat := (l.filter fun x => x.1 = p).length
  let rel := s.link.relay.filter fun r => r.inp = p
  let own := match c.val with
    | 0 => n s.link.ctrl
    | 3 => n s.link.log
    | 1 => (s.emb.waitMsg.filter fun m => m.p = p && (m.kind == .accept || m.kind == .reject || m.kind == .finished)).length
    | _ => (s.emb.waitMsg.filter fun m => m.p = p && !(m.kind == .accept || m.kind == .reject || m.kind == .finished)).length +
      (s.emb.held.filter fun e => match e.2 with | .send q k _ => q == p && k == 1 | _ => false).length
  own + ((rel.drop 8).filter fun r => r.cls = c).length

/-! ### Sending a frame (R331, R337-R340) -/

/-- A frame under construction: the port, the relay list, what its slots hold, messages sent per class. -/
structure FrameSt where
  port : StkPortSt
  relay : List RelayEnt
  counts : Vector Nat 4 := Vector.replicate 4 0
  out : List Msg := []

/-- The first relayed message of a class for the port, and the others (notes/assumptions/45.md). -/
def takeRelay (p c : Fin 4) : List RelayEnt → Option (Msg × List RelayEnt)
  | [] => none
  | r :: rs => if r.outp = p ∧ r.cls = c then some (r.msg, rs) else (takeRelay p c rs).map fun x => (x.1, r :: x.2)

/-- A message of a class with credit: own queue first, then relayed. -/
def FrameSt.takeClass (p c : Fin 4) (f : FrameSt) : Option FrameSt :=
  if f.port.cred[c] = 0 then none
  else
    let used (q : StkPortSt) (r : List RelayEnt) (m : Msg) : FrameSt :=
      { port := { q with cred := upd q.cred c (· - 1), stallSaid := q.stallSaid.set c false, stall := q.stall.set c 0 },
        relay := r, counts := upd f.counts c (· + 1), out := f.out ++ [m] }
    match f.port.txq[c] with
    | m :: ms => some (used { f.port with txq := f.port.txq.set c ms } f.relay m)
    | [] => (takeRelay p c f.relay).map fun x => used f.port x.2 x.1

def FrameSt.takeTime (f : FrameSt) : Option FrameSt :=
  match f.port.times with
  | m :: ms => some { f with port := { f.port with times := ms }, out := f.out ++ [m] }
  | [] => none

def FrameSt.takeExp (f : FrameSt) : Option FrameSt :=
  match f.port.exps, f.port.relExps with
  | m :: ms, _ => some { f with port := { f.port with exps := ms }, out := f.out ++ [m.2] }
  | [], m :: ms => some { f with port := { f.port with relExps := ms }, out := f.out ++ [m] }
  | [], [] => none

/-- An empty message: class 0xFF. -/
def emptyMsg : Msg := mkMsg 0xFF 0 0 0 []

/-- Slots 0-4: the order of R339. -/
def FrameSt.slot (p : Fin 4) (f : FrameSt) : FrameSt :=
  (f.takeTime <|> f.takeExp <|> f.takeClass p 0 <|> f.takeClass p 1 <|> f.takeClass p 2 <|> f.takeClass p 3).getD { f with out := f.out ++ [emptyMsg] }

/-- Slot 5 (R339): EMB_RSP, EMB_REQ, LOG first; after four EMB_RSP while an EMB_REQ waited, EMB_REQ first (18 R383). -/
def FrameSt.slot5 (p : Fin 4) (f : FrameSt) : FrameSt :=
  let reqWaits := !f.port.txq[(2 : Fin 4)].isEmpty
  let turn := decide (4 ≤ f.port.rspRun)
  let g := ((if turn then f.takeClass p 2 else none) <|> f.takeClass p 1 <|> f.takeClass p 2 <|> f.takeClass p 3 <|> f.takeTime <|> f.takeExp <|>
    f.takeClass p 0).getD { f with out := f.out ++ [emptyMsg] }
  let rsp := decide (f.counts[(1 : Fin 4)] < g.counts[(1 : Fin 4)])
  { g with port := { g.port with rspRun := if rsp && reqWaits then f.port.rspRun + 1 else 0 } }

/-- The hops that the controller's TIME messages carry (R340). -/
def State.ownHops (s : State) : Nat := if s.timeRole = 2 then 0 else s.time.hops.toNat

/-- A TIME message of kind 0 SYNC, 1 DELAY_REQ, 2 DELAY_RSP. -/
def State.timeMsg (s : State) (kind : Nat) (pay : List Byte) : Msg := mkMsg 0 (BitVec.ofNat 8 (16 * kind + s.ownHops)) 0 s.node pay

/-- A SYNC is due on the port (R340). -/
def State.sendsSync (s : State) (p : Fin 4) : Bool :=
  decide (s.ownHops < 8) && (s.timeRole == 2 || (s.isFollower && s.time.locked && p != s.parentPort))

/-- A port that measures its delay (R333, R340; 01 R37): enabled and not DOWN, in a standby's TRAINING too. -/
def State.delayLive (s : State) (p : Fin 4) : Bool := s.pr.role != .failed && s.awake && s.stkEn p && s.link.port[p].st != 0

/-- A port enters TRAINING, where it measures its delay with a DELAY_REQ (R333, R340). -/
def State.trains (s : State) (p : Fin 4) : State :=
  s.modPort p fun q => { q with st := 1, times := q.times ++ [s.timeMsg 1 []] }

/-- The frame of a port in TRAINING: it carries the node id, and TIME messages in its slots (R333) (notes/assumptions/46.md). -/
def State.trainSend (s : State) (p : Fin 4) : State :=
  s.modPort p fun q => { q with
    seq := q.seq + 1, train := some (BitVec.ofNat 14 s.node), times := q.times.drop 6,
    slots := q.times.take 6 ++ List.replicate (6 - q.times.length) emptyMsg }

/-- Exports that find their port not UP are not sent (05 R132). -/
def State.unsent (s : State) (p : Fin 4) : State :=
  let bad := (List.range 16).filter fun e => s.link.port[p].exps.any fun m => m.1 == e
  (bad.foldl (fun (s : State) e => s.dev 0x104 4 [nw e, nw p.val]) s).modPort p fun q => { q with exps := [], relExps := [] }

/-- STACK_FRAME_SEND (R331, R333, R334, R337-R341): at cycle 540, once in a tick and after its strobe, the port's frame is filled and
leaves (notes/assumptions/45.md). -/
def State.frameSend (s : State) (p : Fin 4) : State :=
  if s.time.strobeDue || s.link.port[p].sentAt == some s.now then s
  else
  let s := if s.stkLive && !s.portUp p then s.unsent p else s
  if s.delayLive p && s.link.port[p].st == 1 then (s.trainSend p).modPort p fun q => { q with sentAt := some s.now }
  else if !(s.stkLive && s.portUp p) then s
  else
    let s := s.draftForward p
    let q := s.link.port[p]
    let sync := if s.sendsSync p then [s.timeMsg 0 (leBytes 6 s.time.tick.toNat ++ leBytes 2 s.time.epoch.toNat)] else []
    let f0 : FrameSt := { port := { q with times := sync ++ q.times }, relay := s.link.relay }
    let f := (FrameSt.slot5 p ((List.range 5).foldl (fun f _ => f.slot p) f0))
    let c : Fin 4 := idx q.seq.toNat
    let waits (k : Fin 4) : Bool := !f.port.txq[k].isEmpty || f.relay.any fun r => r.outp == p && r.cls == k
    let stall := Vector.ofFn fun k : Fin 4 => if f.port.cred[k] = 0 ∧ f.counts[k] = 0 ∧ waits k = true then f.port.stall[k] + 1 else 0
    let s : State := { s with link := { s.link with relay := f.relay } }
    s.modPort p fun _ => StkPortSt.fillReq { f.port with
      sentAt := some s.now, train := none, seq := q.seq + 1, sent := f.port.sent ++ [(q.seq, f.counts)], slots := f.out, stall := stall,
      credOut := BitVec.ofNat 8 (64 * c.val + (partSize c - s.rxHeld p c)) }

/-- STK_CREDIT_STALL (R341). -/
def State.creditStall (s : State) (p c : Fin 4) : State :=
  let q := s.link.port[p]
  if decide (max 1 (fld (s.reg 0xB0008) 0 16) ≤ q.stall[c]) && !q.stallSaid[c] then
    (s.modPort p fun q => { q with stallSaid := q.stallSaid.set c true }).dev 0x905 4 [nw p.val, Config.codeOf 0x905 1 c.val]
  else s

/-! ### Receiving a frame (R331, R335, R338) -/

/-- Frames sent after the one that `ack` names (all of them where it names none that is kept). -/
def sentAfter (l : List (Byte × Vector Nat 4)) (ack : Byte) : List (Byte × Vector Nat 4) :=
  match l.dropWhile fun x => x.1 != ack with
  | [] => l
  | _ :: rest => rest

/-- One discarded message (R336). -/
def State.relayDrop (s : State) (p : Fin 4) : State := s.modPort p fun q => { q with drop := satAdd q.drop 1 }

/-- Discarded and counted, of a class that has no row of its own (R336): Ember messages and those of no class, for another node. -/
def State.strays (s : State) (m : Msg) : Bool :=
  mCrcOk m && !(mClass m == 0 || mClass m == 1 || mClass m == 4 || mClass m == 0xFF) && !(mDest m == 0 || (mDest m).toNat == s.node)

/-- STACK_FRAME: sequence, acknowledgement, credit and check sums; its comma is a wake source (19 R403). What its messages do are rows of
their own (notes/assumptions/45.md). -/
def State.frameRx (s : State) (p : Fin 4) (sq ack credit : Byte) (slots : List Msg) : State :=
  let s := if s.stkEn p then s.wakeSeen 6 else s
  if !(s.stkLive && s.portUp p) then s
  else
    let c : Fin 4 := idx (fld credit 6 2)
    let s := s.modPort p fun q =>
      let later := sentAfter q.sent ack
      { q with ack := sq, sent := later, cred := q.cred.set c (fld credit 0 5 - (later.map fun x => x.2[c]).foldl (· + ·) 0) }
    let ms := slots.take 6
    let bad := (ms.filter fun m => !mCrcOk m).length
    let s := if bad = 0 then s else s.modPort p fun q => { q with crc := satAdd q.crc bad, crcNew := q.crcNew + bad }
    (ms.filter s.strays).foldl (fun (s : State) _ => s.relayDrop p) s

/-- The end of a tick: event 0x902 of every port that has discarded messages in it, with their number (R335). -/
def State.crcTell (s : State) : State :=
  (fins 4).foldl (fun (s : State) (p : Fin 4) =>
    let n := s.link.port[p].crcNew
    if n = 0 then s else (s.modPort p fun q => { q with crcNew := 0 }).dev 0x902 3 [nw p.val, nw n]) s

/-- A valid CTRL or LOG message on an UP port (R335, R336): delivered to SRECV, relayed, or discarded (notes/assumptions/45.md). -/
def State.msgRx (s : State) (p : Fin 4) (m : Msg) (log : Bool) : State :=
  let cls : Byte := if log then 4 else 1
  let cq : Fin 4 := if log then 3 else 0
  let dest := mDest m
  let hw := !log && decide (0x10 ≤ (mType m).toNat) && decide ((mType m).toNat ≤ 0x21)
  let mine := dest.toNat == s.node
  if !(s.stkLive && s.portUp p && mClass m == cls && mCrcOk m) then s
  else if hw && mine then s
  else if mine || dest == 0 then
    let e := [(p, m)]
    ({ s with link := if log then { s.link with log := s.link.log ++ e } else { s.link with ctrl := s.link.ctrl ++ e } }).evp 4
  else if !bit (s.reg 0xB0008) 31 then s.relayDrop p
  else
    let out := match s.route dest with
      | some q => some q
      | none => if s.timeRole = 1 ∧ s.parentPort ≠ p then some s.parentPort else none
    match out with
    | none => s.relayDrop p
    | some q =>
      if hw then s.modPort q fun k => { k with relExps := putNewest k.relExps m }
      else { s with link := { s.link with relay := s.link.relay ++ [{ inp := p, outp := q, cls := cq, msg := m }] } }

/-- EXPORT_MESSAGE (05 R134): kept for the next cycle 0. -/
def State.exportRx (s : State) (src : BitVec 14) (j : Fin 16) (v0 v1 : Word) : State :=
  if s.stkLive && (fins 4).any s.portUp then { s with fbx := { s.fbx with impIn := s.fbx.impIn ++ [(s.now, src, j, v0, v1)] } } else s

/-- DRAFT_FWD_TRAJ and DRAFT_FWD_VPP (08 R207, R208). -/
def State.fwdTrajRx (s : State) (p : Fin 4) (pw sw : Word) : State :=
  if s.stkLive && s.portUp p then { s with dft := { s.dft with fwdIn := s.dft.fwdIn ++ [(s.now, p, pw, sw)] } } else s
def State.fwdVppRx (s : State) (p : Fin 4) (v tk : Word) : State :=
  if s.stkLive && s.portUp p then { s with dft := { s.dft with vppIn := s.dft.vppIn ++ [(s.now, v, tk)] } } else s

/-- Imports and forwards that have been received are latched; a latch clears the import's stale bit (05 R134, 08 R208, R343). -/
def State.latchReceived (s : State) : State :=
  let s := s.latchImports.latchFwd
  let fresh : Word := (fins 32).foldl (fun w i => let m := s.fbx.imp[i]; if !m.never && m.age == 0 then w ||| bw true i.val else w) 0
  { s with link := { s.link with impStale := s.link.impStale &&& ~~~ fresh } }

/-- IMPORT_LATCH (05 R134, 08 R208, R343): at cycle 0, and the Draft values follow (notes/assumptions/45.md). -/
def State.importLatch (s : State) : State :=
  if s.cycle ≠ 0 then s else ((s.latchReceived).measured).vppDue.dftValues

/-- STK_IMPORT_STALE (R343). -/
def State.importStale (s : State) (i : Fin 32) : State :=
  let lim := fld (s.reg 0xB000C) 0 16
  let m := s.fbx.imp[i]
  if lim ≠ 0 ∧ m.never = false ∧ lim ≤ m.age.toNat ∧ bit s.link.impStale i.val = false then
    ({ s with link := { s.link with impStale := s.link.impStale ||| bw true i.val } }).dev 0x903 5 [nw i.val, m.src.setWidth 32]
  else s

/-! ### Time messages (R340) -/

/-- DELAY_REQ: answered with the turnaround. -/
def State.delayReqRx (s : State) (p : Fin 4) (turn : Word) : State :=
  if s.delayLive p then s.modPort p fun q => { q with times := q.times ++ [s.timeMsg 2 (wBytes turn)] } else s

/-- DELAY_RSP: half of (round trip - turnaround). A port in TRAINING takes it, and an UP one only from the parent of a follower
(R333, R336, R340; 02 R48), whose 64 ticks without a TIME message have run out first (02 R51) (notes/assumptions/46.md). -/
def State.delayRspRx (s : State) (p : Fin 4) (turn trip : Word) : State :=
  let parent := s.timeRole == 1 && p == s.parentPort
  if s.delayLive p && (!s.portUp p || (s.isFollower && parent)) then
    let d := nw ((trip.toNat - turn.toNat) / 2)
    let s := if s.portUp p then s.timeLose 2 else s
    let s := s.modPort p fun q => { q with dly := d }
    if parent then s.modTime fun t => { t with hopDly := d, lastTime := if s.portUp p then s.now else t.lastTime } else s
  else s

/-- A follower measures its hop delay once per slow frame (notes/assumptions/46.md). -/
def State.delaySlow (s : State) : State :=
  if s.isFollower = true ∧ s.portUp s.parentPort then s.modPort s.parentPort fun q => { q with times := q.times ++ [s.timeMsg 1 []] } else s

/-! ### Port states (R333, R334) -/

/-- STK_PORT_UP: 64 valid frames have put a training port UP, or it is refused (notes/assumptions/46.md). -/
def State.portUpRx (s : State) (p : Fin 4) (far : BitVec 14) : State :=
  if !(s.stkLive && s.stkEn p && s.link.port[p].st == 1) then s
  else
    let dup := s.node == 0 || far.toNat == s.node || (fins 4).any fun q => q != p && s.portUp q && s.link.port[q].far == far
    if dup then s.modPort p fun q => { q with dup := true }
    else
      (s.modPort p fun q => { q with st := 2, dup := false, far := far, cred := Vector.ofFn partSize, sent := [],
                                     stall := Vector.replicate 4 0, rspRun := 0 }).dev 0x900 2
        [nw p.val, far.setWidth 32, s.link.port[p].dly]

/-- STK_PORT_DOWN; the port returns to TRAINING at the next cycle 0. -/
def State.portDownRx (s : State) (p : Fin 4) (lockLost : Bool) : State :=
  if s.link.port[p].st = 0 then s
  else
    (s.modPort p fun q => { q with st := 0, lockAt := if lockLost then none else q.lockAt, dup := if q.st = 2 then q.dup else false }).dev 0x901 5
      [nw p.val, Config.codeOf 0x901 1 lockLost.toNat]

/-- Ports at cycle 0: enabled ones train, and align to the stream; disabled ones are DOWN; a standby holds its ports in TRAINING
(01 R37) (notes/assumptions/46.md). -/
def State.stkTick (s : State) : State :=
  (fins 4).foldl (fun (s : State) (p : Fin 4) =>
    let st := s.link.port[p].st
    let want : BitVec 2 := if !s.stkEn p || !s.awake then 0 else if st = 0 ∨ s.inStandby = true then 1 else st
    let lock (q : StkPortSt) : Option Nat := if want = 0 then none else q.lockAt <|> some s.now
    
    if st = want ∧ lock s.link.port[p] = s.link.port[p].lockAt then s
    else
      let s := if want = 1 ∧ st ≠ 1 then s.trains p else s
      s.modPort p fun q => { q with st := want, lockAt := lock q }) s

/-- Every UP port returns to TRAINING. -/
def State.retrainAll (s : State) : State :=
  (fins 4).foldl (fun (s : State) (p : Fin 4) => if s.link.port[p].st = 2 then s.trains p else s) s

/-- STK_NODE (R333). -/
def State.nodeWrite (s : State) (v : Word) : State := (s.setReg 0xB0004 (v &&& 0x3FFF)).retrainAll

/-- STK_PORT_CTRL[p] (R333, R335). -/
def State.portRetrain (s : State) (p : Fin 4) : State := if s.link.port[p].st = 2 then s.trains p else s
def State.portClr (s : State) (p : Fin 4) : State := s.modPort p fun q => { q with crc := 0, drop := 0 }
def State.portCtrl (s : State) (p : Fin 4) (m v : Word) : State :=
  let s := s.setReg (stkA p.val 0) (m &&& 0x80000000)
  let s := if bit m 31 then s else s.modPort p fun q => { q with st := 0, lockAt := none, dup := false }
  let s := if bit v 1 then s.portClr p else s
  if bit v 0 then s.portRetrain p else s

/-- STK_CLU (R342): a change of role or lead is logged; role 3 acts as 0. -/
def State.cluWrite (s : State) (v : Word) : State :=
  let old := s.reg 0xB000C
  let role (w : Word) : Nat := fld w 30 2 % 3
  let s := s.setReg 0xB000C v
  if role old ≠ role v ∨ fld old 16 14 ≠ fld v 16 14 then s.dev 0x904 4 [nw (role old), nw (fld old 16 14), nw (role v), nw (fld v 16 14)] else s

/-! ### Registers -/

def State.stkRead (s : State) (o : Nat) : Word :=
  if o = 0 then nw s.nPorts
  else if o = 0x10 then s.link.impStale
  else if 0x100 ≤ o ∧ o < 0x180 then
    let p : Fin 4 := idx ((o - 0x100) / 0x20)
    let q := s.link.port[p]
    let four (f : Fin 4 → Nat) : Word := nw (f 0) <<< 24 ||| nw (f 1) <<< 16 ||| nw (f 2) <<< 8 ||| nw (f 3)
    match o % 0x20 with
    | 0x04 => at_ q.st 30 ||| bw q.dup 29 ||| bw (s.parentPort == p) 28 ||| (if q.st = 2 then at_ q.far 0 else 0)
    | 0x08 => q.dly
    | 0x0C => four fun c => q.cred[c]
    | 0x10 => four fun c => q.txq[c].length
    | 0x14 => at_ q.crc 16 ||| at_ q.drop 0
    | _ => 0
  else 0

end Sys2Proof.Machine
end

