-- ==== Sys2Proof/Machine/Twi.lean ====
section
/-! DEFINITION. The two-wire ports: configuration, sleep, timeouts, controller transactions (15_two_wire.md R314-R325). -/

namespace Sys2Proof.Machine

def twiA (i : Nat) (o : Nat) : Nat := 0xA0000 + 0x1000 * i + o

def State.modTwi (s : State) (i : Fin 3) (f : TwiSt → TwiSt) : State := { s with twi := upd s.twi i f }
def State.twiCfg (s : State) (i : Fin 3) : Word := s.reg (twiA i.val 0)

/-- TWI_CFG[i].own_addr: on TWI0 the straps give it (R316). -/
def State.ownAddr (s : State) (i : Fin 3) : Nat := if i = 0 then 0x58 + s.host.straps.toNat else fld (s.twiCfg i) 0 7

/-- The port acts as a target (R314, R316); in SHIP TWI1 and TWI2 are off (19 R401). -/
def State.twiTarget (s : State) (i : Fin 3) : Bool :=
  bit (s.twiCfg i) 31 && bit (s.twiCfg i) 30 && decide (8 ≤ s.ownAddr i) && decide (s.ownAddr i < 0x78) &&
  (i == 0 || !(s.yetHalted || s.pr.role == .failed || s.pwr.state == 3))

/-- The port may start controller transactions (R314, 01 R37, 17 R361, 19 R401). -/
def State.twiController (s : State) (i : Fin 3) : Bool :=
  bit (s.twiCfg i) 31 && bit (s.twiCfg i) 29 && !s.yetHalted && !((s.pr.role == .failed || s.pwr.state == 3) && i != 0)

/-- A bit of STATUS_CML is set (R322, R326). -/
def State.cmlSet (s : State) (b : Nat) : State := { s with host := { s.host with stCml := s.host.stCml ||| (1 : Byte) <<< b } }

/-- A bit of STATUS_CML that only TWI0's faults set (R328). -/
def State.cmlSeen (s : State) (i : Fin 3) (b : Nat) : State := if i = 0 then s.cmlSet b else s

/-- A target transaction ends: whether a byte of it was not acknowledged. -/
def State.acked (s : State) (i : Fin 3) (no : Bool) : State := s.modTwi i fun t => { t with nack := no, busAt := s.now }

/-- A transaction of TWI0 that does not end in STOP leaves the pointer as it was (R319). -/
def State.ptrBack (s : State) (i : Fin 3) : State :=
  match i, s.host.saved with
  | 0, some (p, n) => { s with host := { s.host with ptr := p, rlen := n, saved := none } }
  | _, _ => s

/-- TWI_CFG[i] is written: `m` is the word with the bytes written merged in, `lane` their mask (R318). -/
def State.twiCfgWrite (s : State) (i : Fin 3) (m lane : Word) : State :=
  let s := s.setReg (twiA i.val 0) (m &&& (if i = 0 then 0xF8FF3000 else 0xF8FF307F))
  if bit lane 28 then s.modTwi i fun t => { t with asleep := bit m 28 } else s

/-- TWI_WAKE: an address byte that names a sleeping port (R318); on TWI0 it is a wake source (19 R403) (notes/assumptions/41.md). -/
def State.twiWake (s : State) (i : Fin 3) : State :=
  if s.twi[i].asleep && s.twiTarget i then
    let s := s.modTwi i fun t => { t with asleep := false, busAt := s.now }
    if i = 0 then s.wakeSeen 0 else s
  else s

/-- A stretch has reached 2 ms, this port's own or another device's (R317, R328). -/
def State.stretchSeen (s : State) (i : Fin 3) (own : Bool) : State :=
  ((s.modTwi i fun t => { t with stretchTo := true, stretchCnt := satAdd t.stretchCnt 1 }).dev 0x800 4
    [nw i.val, Config.codeOf 0x800 1 own.toNat]).cmlSeen i 1

/-! ### Controller transactions (R324, R325) -/

/-- The transaction ends with a status. -/
def State.cxEnd (s : State) (i : Fin 3) (st : BitVec 4) : State := s.modTwi i fun t => { t with cx := none, cxLoss := 0, cxOn := false, status := st, busAt := s.now }

/-- A go written to TWI_CX_CMD[i] (R314, R324): it goes on the bus at once, on TWI2 behind an enforcement write that is there or
due (R325) (notes/assumptions/41.md). -/
def State.cxStart (s : State) (i : Fin 3) (x : CxTxn) : State :=
  if s.twi[i].cx.isSome then s.modTwi i fun t => { t with status := 6 }
  else if !s.twiController i then s.cxEnd i 7
  else if x.proto = 3 ∧ (x.len = 0 ∨ 32 < x.len.toNat) then s.cxEnd i 8
  else s.modTwi i fun t => { t with cx := some x, cxLoss := 0, cxOn := i != 2 || !(s.enfOnBus || s.enfWaits), busAt := s.now }

/-- On TWI2 a program transaction that waited is on the bus once no enforcement write is there or due (R325). -/
def State.cxReady (s : State) (i : Fin 3) : State := if i = 2 then s.cxKick else s

/-- TWI_CX_CMD[i] as a word. -/
def State.cxCmd (s : State) (i : Fin 3) (v : Word) : State :=
  if bit v 31 then s.cxStart i { proto := bits v 28 3, pec := bit v 27, addr := bits v 16 7, code := bits v 8 8, len := bits v 0 6 } else s

/-- Data bytes a read protocol returns when it ends well. -/
def rxLenOk (proto : BitVec 3) (n : Nat) : Bool :=
  match proto with
  | 4 | 5 => n == 1
  | 6 => n == 2
  | 7 => 1 ≤ n && n ≤ 32
  | _ => n == 0

/-- Bytes received stand in TWI_CX_BUF[i], byte 0 lowest (notes/assumptions/41.md). -/
def State.cxPut (s : State) (i : Fin 3) (rx : List Byte) : State :=
  ((List.range rx.length).take 32).foldl (fun (s : State) (k : Nat) =>
    let a := twiA i.val (0x20 + 4 * (k / 4))
    let sh := 8 * (k % 4)
    s.setReg a ((s.reg a &&& ~~~ ((0xFF : Word) <<< sh)) ||| (rx.getD k 0).setWidth 32 <<< sh)) s

/-- A transaction can end with this status now (notes/assumptions/41.md). -/
def State.cxDue (s : State) (i : Fin 3) (x : CxTxn) (st : BitVec 4) (n : Nat) : Bool :=
  match st with
  | 0 => rxLenOk x.proto n
  | 1 | 2 | 4 => true
  | 3 => decide (fld (s.twiCfg i) 16 8 ≤ s.twi[i].cxLoss)
  | 5 => x.pec && 4 ≤ x.proto.toNat
  | 8 => x.proto == 7
  | _ => false

/-- The flags and the event of a controller's transaction to `addr` that ends with status `st`: a last lost arbitration, a stretch by
another device, a PEC that failed (R317, R322, R324). -/
def State.cxErr (s : State) (i : Fin 3) (st : BitVec 4) (addr : BitVec 7) : State :=
  match st with
  | 3 => (s.modTwi i fun t => { t with arbLost := true }).dev 0x802 3 [nw i.val, addr.setWidth 32]
  | 4 => s.stretchSeen i false
  | 5 => s.modTwi i fun t => { t with pecErr := true }
  | _ => s

/-- TWI_CX_DONE (R324, R325) (notes/assumptions/41.md). -/
def State.cxDone (s : State) (i : Fin 3) (st : BitVec 4) (rx : List Byte) : State :=
  let s := s.cxReady i
  match s.twi[i].cx with
  | none => s
  | some x =>
    if !s.twi[i].cxOn || !s.cxDue i x st rx.length then s
    else
      let s := if 4 ≤ x.proto.toNat then s.cxPut i rx else s
      let s := if x.proto = 7 then s.modTwi i fun t => { t with rlen := BitVec.ofNat 8 (min rx.length 32) } else s
      (s.cxEnd i st).cxErr i st x.addr

/-- A controller's transaction is on the port's bus: a program's, or on TWI2 an enforcement write (R325). -/
def State.cxDrives (s : State) (i : Fin 3) : Bool := s.twi[i].cxOn || (i == 2 && s.enfOnBus)

/-- ARBITRATION_RETRY: a loss with a retry left (R324). -/
def State.arbRetry (s : State) (i : Fin 3) : State :=
  let s := s.cxReady i
  if s.cxDrives i && decide (s.twi[i].cxLoss < fld (s.twiCfg i) 16 8) then s.modTwi i fun t => { t with cxLoss := t.cxLoss + 1, busAt := s.now } else s

/-! ### Bus conditions (R317, R320) -/

/-- TWI_EARLY_START. -/
def State.earlyStart (s : State) (i : Fin 3) (cnt : Byte) : State :=
  if s.twiTarget i then
    (((s.ptrBack i).modTwi i fun t => { t with earlyStart := satAdd t.earlyStart 1, busAt := s.now }).dev 0x801 3 [nw i.val, cnt.setWidth 32]).cmlSeen i 1
  else s

/-- An enforcement write on TWI2's bus fails (R325, 09 R222). -/
def State.enfFails (s : State) (i : Fin 3) (err : BitVec 4) : State :=
  if i = 2 then (fins 256).foldl (fun (s : State) h => s.enforceEnd h false err) s else s

/-- ENFORCE_WRITE_END (R222, R325): an acknowledged write, or a failed one with the status its failure would give TWI_CX_RES; a lost
arbitration ends it once no retry is left (notes/assumptions/27.md). -/
def State.enforceRow (s : State) (h : Fin 256) (ok : Bool) (err : BitVec 4) : State :=
  if !s.emb.hold[h].enf.onBus ∨ (!ok && err == 3 && decide (s.twi[(2 : Fin 3)].cxLoss < fld (s.twiCfg 2) 16 8)) then s
  else
    let t := (s.busUsed 2).enforceEnd h ok err
    if ok then t else t.cxErr 2 err (bits (s.hCfg h) 16 7)

/-- A port stretches as a target, or drives its bus as a controller (R317). -/
def State.onBus (s : State) (i : Fin 3) (own : Bool) : Bool :=
  if own then s.twiTarget i && !s.twi[i].asleep else s.cxDrives i

/-- The window that a line held low opened has run out: nothing has moved on the bus for `n` ticks (18 R386) (notes/assumptions/41.md). -/
def State.heldFor (s : State) (i : Fin 3) (n : Nat) : Bool := decide (s.twi[i].busAt + n ≤ s.now)

/-- TWI_STRETCH_TIMEOUT, 2,000 ticks after SCL was first held low (18 R386): own stretch of a target, which commits nothing and leaves the byte
not acknowledged, or another device's of a controller, which ends its transaction (notes/assumptions/41.md). -/
def State.stretchTimeout (s : State) (i : Fin 3) (own : Bool) : State :=
  let s := s.cxReady i
  if !(s.onBus i own && s.heldFor i 2000) then s
  else
  let s := if own then (s.ptrBack i).acked i true else if s.twi[i].cxOn then s.cxEnd i 4 else s.enfFails i 4
  (s.busUsed i).stretchSeen i own

/-- TWI_SELF_RESET, 25,000 ticks after the line was first held low (18 R386): what the port had under way ends; a controller that finds SDA held clears the bus by up to 9 clocks, the last
the one after which SDA is free, and a STOP (R315, R317) (notes/assumptions/41.md). -/
def State.selfReset (s : State) (i : Fin 3) (sda : Bool) (clk : BitVec 4) : State :=
  if !(bit (s.twiCfg i) 31 && s.heldFor i 25000) then s
  else
    let ctl := s.twiController i
    let s := (if s.twi[i].cx.isSome then s.cxEnd i 4 else s).ptrBack i
    let s := s.enfFails i 4
    ((s.modTwi i fun t => { t with selfReset := true, busAt := s.now, clears := if sda && ctl then (if clk.toNat < 9 then clk else 9) else 0 }).dev 0x804 4
      [nw i.val, Config.codeOf 0x804 1 sda.toNat]).cmlSeen i 1

/-! ### Registers -/

/-- TWI_STAT[i].bus_busy as `ini` reads it: TWI0's own transaction holds its bus; whether a program transaction has its START
behind it the bus decides, a free value (notes/assumptions/9.md). -/
def State.busBusy (s : State) (i : Fin 3) (ini : Initiator) : Bool :=
  (i == 0 && ini == .twi0) || (i == 2 && s.enfOnBus) || (s.twi[i].cxOn && bit (Config.freeWord s.freeCtr) 0)

/-- Reads of a port's own registers. -/
def State.twiRead (s : State) (ini : Initiator) (o : Nat) : Word :=
  let i : Fin 3 := idx (o / 0x1000)
  let t := s.twi[i]
  match o % 0x1000 with
  | 0x00 => s.twiCfg i ||| (if i = 0 then nw (s.ownAddr 0) else 0)
  | 0x04 => bw (s.busBusy i ini) 31 ||| bw t.asleep 30 ||| (if i = 0 then nw s.host.queue.length else 0)
  | 0x08 => bw t.arbLost 31 ||| bw t.stretchTo 30 ||| bw t.pecErr 29 ||| bw t.selfReset 28 ||| at_ t.earlyStart 8 ||| at_ t.stretchCnt 0
  | 0x14 => bw t.cx.isSome 31 ||| at_ t.rlen 8 ||| at_ t.status 0
  | _ => 0

/-- Writes of TWI_CFG, TWI_ERR and TWI_CX_CMD: `v` holds only the bytes written, `m` is the word with them merged in. -/
def State.twiWrite (s : State) (o : Nat) (v m lane : Word) : State :=
  let i : Fin 3 := idx (o / 0x1000)
  match o % 0x1000 with
  | 0x00 => s.twiCfgWrite i m lane
  | 0x08 => s.modTwi i fun t => { t with
      arbLost := t.arbLost && !bit v 31, stretchTo := t.stretchTo && !bit v 30, pecErr := t.pecErr && !bit v 29, selfReset := t.selfReset && !bit v 28 }
  | 0x10 => s.cxCmd i v
  | _ => s

end Sys2Proof.Machine
end

