-- ==== Sys2Proof/Machine/PairReg.lean ====
section
/-! DEFINITION. The pair unit's registers and commands, and the deferrable queue of the mirror (17_pairing.md R353, R356, R361, R366). -/

namespace Sys2Proof.Machine

/-- A mirror record: header and body (R353). -/
def mkRec (kind : Nat) (body : List Byte) : Rec := leBytes 2 (kind * 1024 + body.length % 1024) ++ body

/-- Register writes that the deferrable queue takes: no parameters, of the PHS, DFT, THM, BAT and SEQ blocks; and the matrix
store window (R356). -/
def State.mirrored (s : State) (a : Nat) : Bool :=
  s.pr.role == .active &&
  ((0x18000 ≤ a && a < 0x20000) ||
   ((a / 0x10000 == 2 || a / 0x10000 == 13 || a / 0x10000 == 4 || a / 0x10000 == 5 || a / 0x10000 == 14) &&
    (baseInfo (a - a % 4)).kind != .unmapped && (baseInfo (a - a % 4)).kind != .par))

def State.mirFull (s : State) : Bool := 64 ≤ s.pr.queue.length

/-- Records that a mirrored write of the word brings: a write of SEQ_MEVSET also sends its machine (R356). -/
def mirNeed (a : Nat) : Nat := if 0xE0300 ≤ a ∧ a < 0xE0400 then 2 else 1

/-- Thread B and the host queues wait before a mirrored write while the queue has no room for its records (R356) (notes/assumptions/20.md). -/
def State.mirHold (s : State) (a : Nat) : Bool := s.mirrored a && decide (64 < s.pr.queue.length + mirNeed a)

/-- A record of the kind named joins the deferrable queue; one of thread F is lost while it is full, and the others have waited for
their room (R356) (notes/assumptions/52.md). -/
def State.mirPush (s : State) (ini : Initiator) (kind : Nat) (r : Rec) : State :=
  if s.pr.role != .active then s
  else if ini = .F ∧ s.mirFull = true then
    ({ s with pr := { s.pr with staleTx := true, resyncReq := true } }).dev 0xA02 3 [nw kind]
  else { s with pr := { s.pr with queue := s.pr.queue ++ [r] } }

/-- A WR record (notes/assumptions/53.md). -/
def State.mirWr (s : State) (ini : Initiator) (a : Nat) (w : Word) : State :=
  if s.mirrored a then s.mirPush ini 0x10 (mkRec 0x10 (leBytes 4 a ++ wBytes w)) else s

/-- SYS_SEQ record of machine `j` (R353, R356). -/
def State.seqRec (s : State) (j : Fin 64) : Rec :=
  let m := s.seq.mach[j]
  let tmr (i : Nat) : List Byte := wBytes (s.seqRead (0x400 + 4 * i))
  mkRec 0x11 ([BitVec.ofNat 8 j.val, BitVec.ofNat 8 (m.state.toNat + 64 * m.fault.toNat + 128 * (s.table 1 j.val).isSome.toNat)] ++
    leBytes 2 m.ev.toNat ++ tmr (2 * j.val) ++ tmr (2 * j.val + 1))

/-- A SEQ record is due for a machine that a TSTEP or a write to SEQ_MEVSET changed. -/
def State.mirSeq (s : State) (ini : Initiator) (j : Fin 64) : State := if s.pr.role = .active then s.mirPush ini 0x11 (s.seqRec j) else s

/-! ### Commands (R361, R366) -/

/-- PAIR_CMD.release. -/
def State.cmdRelease (s : State) (key : Byte) : State := if key = 0x3C then s.pairRelease 3 else s

/-- The first slow-frame boundary at or after elapsed tick `e`, under the TICK in force. -/
def State.boundaryFrom (s : State) (e : Nat) : Nat := e + (1024 - (s.tickAt e).toNat % 1024) % 1024

/-- The swap commanded or announced, while its boundary can still be kept (R366). -/
def State.swapKept (s : State) : Option Nat := s.pr.swapAt.filter fun b => s.pr.swapAnn || decide (s.now + 3 ≤ b)

/-- PAIR_CMD.swap: the first boundary at least 4 ticks ahead; a swap that stands already keeps its boundary (notes/assumptions/56.md). -/
def State.cmdSwap (s : State) (key : Byte) : State :=
  if key = 0x3C ∧ s.pr.role = .active then { s with pr := { s.pr with swapAt := some (s.swapKept.getD (s.boundaryFrom (s.now + 4))) } } else s

/-- The next planned boundary: the one announced; else the earlier of the one commanded and the one at which the interval has passed, which is
no boundary that can no longer be checked (R366). -/
def State.swapPlan (s : State) : Option Nat :=
  if s.pr.role != .active then none
  else
    let n := (s.reg 0xC0018).toNat
    let auto := match s.pr.swapBase with
      | some b => if n = 0 then none else some (s.boundaryFrom (max (b + 1024 * n) (s.now + 3)))
      | none => none
    match s.swapKept, auto with
    | some a, some b => some (if s.pr.swapAnn then a else min a b)
    | some a, none => some a
    | none, b => b

/-! ### Registers -/

/-- DAMPER_OUT (R346); in witness role the pin is the grant to A (R351). -/
def State.damperOut (s : State) : Bool := if s.pr.role = .witness then s.pr.witSt.grantA else s.pr.role == .active && s.pr.wit

/-- The PWM gate (R347). -/
def State.pwmGate (s : State) : Bool :=
  match s.pr.role with
  | .unpaired | .witness => true
  | _ => s.damperOut && s.pr.gateOpen

/-- PWMH and PWML of a phase as driven, each dead time over; none while the damper gate tri-states them (07 R170, R347), from a reset until
the PLL locks (19 R388), and of a phase that is not fitted (20 R406). -/
def State.pwmPins (s : State) (n : Fin 48) : Option (Bool × Bool) :=
  if s.clk.pllLock && decide (n.val < s.nPhases) && s.pwmGate then some s.phs.ph[n].levels else none

/-- DAMPER_OUT as driven: none in a variant without the pair unit, and from a reset until the PLL locks (19 R388, 20 R406). -/
def State.damperPin (s : State) : Option Bool := if s.clk.pllLock && s.hasPair then some s.damperOut else none

/-- SLOW_N as driven, a bit for every asserted line; none from a reset until the PLL locks (19 R388). -/
def State.slowPin (s : State) : Option (BitVec 16) := if s.clk.pllLock then some s.slowPins else none

/-- Reads of the pair unit's status registers. -/
def State.pairRead (s : State) (o : Nat) : Word :=
  let p := s.pr
  if o = 0x04 then
    at_ p.role.code 29 ||| bw p.solo 28 ||| bw p.stale 27 ||| bw p.staleTx 26 ||| bw s.pins.witGrant 25 ||| bw s.pwmGate 24 ||| bw s.damperOut 23 |||
    bw p.damperIn 22 ||| bw p.imgMm 21 ||| at_ p.txSeq 8 ||| at_ p.ackSeq 0
  else if o = 0x08 then nw p.queue.length <<< 24 ||| nw (min 255 p.sets.length) <<< 16 ||| at_ p.used 0
  else if o = 0x0C then at_ p.bad 16 ||| at_ p.hand 8 ||| at_ p.resyncs 0
  else if o = 0x10 then p.dly
  else if o = 0x1C then (match s.swapPlan with | some t => (s.tickAt t).setWidth 32 | none => 0)
  else if o = 0x24 then
    let l := p.leadWin.getD 0
    let r := p.parWin.getD 0
    bw (l != 0) 31 ||| bw (r != 0) 30 ||| nw (min 65535 (if l ≠ 0 then l else r))
  else 0

/-- Writes of PAIR_STAT and PAIR_CMD (`v` holds only the bytes written). -/
def State.pairWrite (s : State) (o : Nat) (v : Word) : State :=
  if o = 0x04 then (if bit v 26 then { s with pr := { s.pr with staleTx := false } } else s)
  else if o = 0x14 then
    let s := if bit v 31 then s.cmdRelease (bits v 16 8) else s
    if bit v 30 then s.cmdSwap (bits v 16 8) else s
  else s

end Sys2Proof.Machine
end

