-- ==== Sys2Proof/Machine/Reset.lean ====
section
/-! DEFINITION. Resets (19 R387-R391, R404) and the first boot steps: PLL lock, the MRAM system area, fuse sensing (R392). -/

namespace Sys2Proof.Machine

/-- What a system reset keeps of the recorder (R273, R390): the ring with its pointers, sequence and counters, what is staged, and the
summaries that are owed (18 R374) (notes/assumptions/13.md). -/
def LogSt.kept (l : LogSt) : LogSt :=
  { seq := l.seq, head := l.head, tail := l.tail, rel := l.rel, ents := l.ents, staged := l.staged, posted := l.posted, held := l.held,
    heldAt := l.heldAt, owed := l.owed, drop := l.drop, supp := l.supp, evict := l.evict, lossDue := l.lossDue, bb := { finished := l.bb.finished, armed := l.bb.armed } }

/-- What a system reset keeps of the battery unit (11 R249, R390): accumulators, residues, ship (notes/assumptions/13.md). -/
def BatSt.kept (b : BatSt) : BatSt := { ship := b.ship, str := b.str.map fun k => { q := k.q, residue := k.residue } }

/-- What every reset keeps of the store's controller: what the MRAM's system area holds (13 R284, R291, R297) (notes/assumptions/13.md, 39.md). -/
def NvmSt.kept (n : NvmSt) : NvmSt := { marker := n.marker, sysPart := n.sysPart, journal := n.journal }

/-- What a system reset keeps of the fuse unit (14 R299, R301): the array, the latched words, region states and codes (notes/assumptions/13.md). -/
def OtpSt.kept (o : OtpSt) : OtpSt :=
  { copyA := o.copyA, copyB := o.copyB, seen := o.seen, data := o.data, marginal := o.marginal, region := o.region, cause := o.cause, part := o.part }

/-- The reset entries of LOG_RATE close every open window, as a write to its entry does: its summary is owed from the next tick on
(12 R268, R273, 18 R374) (notes/assumptions/13.md). -/
def State.closeWins (s : State) : State :=
  (fins 64).foldl (fun s i => { s with log := closeWin s.log i (bits (s.reg (rateAddr i.val 0)) 0 12) (s.now + 1) }) s

/-- The state a system reset leaves (R390) (notes/assumptions/13.md, 60.md). -/
def State.afterReset (s : State) (cause : BitVec 2) : State :=
  { pending := s.pending, now := s.now, freeCtr := s.freeCtr,
    mem := s.mem.filter fun c => (logBase ≤ c.1 && c.1 < logBase + logRing) || mramBase ≤ c.1
    ecc := s.ecc.filter fun c => (logBase ≤ c.1 && c.1 < logBase + logRing) || mramBase ≤ c.1
    pins := s.pins
    clk := { holdoverExp := s.clk.holdoverExp }
    boot := { held := (cause == 1 || s.boot.held) && !s.boot.freed, cause := cause, sysCnt := satAdd s.boot.sysCnt 1 }
    log := s.closeWins.log.kept, bat := { s.bat.kept with keeper := s.shipN }, nvm := s.nvm.kept, otp := s.otp.kept
    host := { straps := s.host.straps }
    pr := { hand := s.pr.hand, damperIn := s.pr.damperIn }
    feat := s.feat }

/-- POWER_ON_RESET: a power failure, then everything but the MRAM at its reset value (R387, R390, 13 R290). -/
def State.powerOn (s : State) : State :=
  let s := s.nvPowerFail.otpPowerFail
  { pending := s.pending, freeCtr := s.freeCtr,
    mem := s.mem.filter fun c => mramBase ≤ c.1
    ecc := s.ecc.filter fun c => mramBase ≤ c.1
    nvm := s.nvm.kept
    otp := { copyA := s.otp.copyA, copyB := s.otp.copyB } }

/-- An OTP attempt is under way, until its end has been given (R391). -/
def State.otpBusy (s : State) : Bool :=
  match s.otp.cmd with
  | some (.program _ _ _) => true
  | _ => false

/-- A system reset that waits takes effect once no page write and no OTP attempt is in progress (R391). -/
def State.resetIfDue (s : State) : State :=
  match s.boot.rstPend with
  | some c => if s.nvm.cur.isNone && !s.otpBusy then s.afterReset c else s
  | none => s

/-- A system reset (R389, R391): every phase stops at once, queued pages are abandoned, and the reset waits (notes/assumptions/13.md). -/
def State.sysReset (s : State) (cause : BitVec 2) : State :=
  let s := (s.stopAll 6).otpStop
  let kept (d : Fin 8 × PartDef) : Bool :=
    match s.nvm.cur with
    | some w => w.src == .define d.1
    | none => false
  let s := if s.nvWaiting.isEmpty then s else s.evp 3
  State.resetIfDue { s with
    nvm := { s.nvm with queue := [], defs := s.nvm.defs.filter kept }
    log := { s.log with bb := { s.log.bb with queue := [] } }
    boot := { s.boot with rstPend := some (if cause = 1 then 1 else s.boot.rstPend.getD cause), freed := s.boot.freed && cause != 1 } }

/-- SYS_RST_CMD (R389): another key has no effect. -/
def State.rstCmd (s : State) (key : Byte) : State := if key = 0xC3 then s.sysReset 2 else s

/-- SHIP_WAKE (R404). -/
def State.shipWake (s : State) : State :=
  match s.bat.wakeReset with
  | some t => if t ≤ s.now then State.sysReset { s with bat := { s.bat with wakeReset := none } } 3 else s
  | none => s

/-- RESET_N is released: ADDR[2:0] is sampled, also while the reset waits (R391), and the reset it holds ends (15 R316, R388). -/
def State.resetRelease (s : State) (straps : BitVec 3) : State :=
  if s.boot.stage = .pll then { s with host := { s.host with straps := straps }, boot := { s.boot with held := false } }
  else if s.boot.rstPend = some 1 then { s with host := { s.host with straps := straps }, boot := { s.boot with freed := true } }
  else s

/-! ### Boot steps 1 to 3 (R392) -/

/-- The MRAM system area is read: page-write marker, then partitions (13 R290, R291). -/
def State.readSysArea (s : State) : State :=
  let s := match s.nvm.marker with
    | some (page, tk) => State.dev { s with nvm := { s.nvm with marker := none } } 0x704 6 [page.setWidth 32, tk]
    | none => s
  { s with nvm := { s.nvm with part := Vector.ofFn fun i : Fin 8 =>
      match s.nvm.sysPart[i] with
      | some d => { en := d.en, rpw := d.rpw, wpw := d.wpw, first := d.first, count := d.count, rdPw := d.rdPw, wrPw := d.wrPw }
      | none => {} } }

/-- PLL_LOCK: the reset ends, TICK counts from 0, and record 0x050 follows (R392, 12 R265) (notes/assumptions/3.md, 14.md). -/
def State.pllLock (s : State) : State :=
  if s.boot.stage = .pll ∧ s.boot.held = false then
    let s : State := { s with clk := { s.clk with pllLock := true, refOk := true }, time := { s.time with fresh := true } }
    let s := s.postEpoch
    if s.boot.cause = 0 ∨ s.otp.seen = false then { s with boot := { s.boot with stage := .fuses } }
    else State.readSysArea { s with boot := { s.boot with stage := .image } }
  else s

/-- FUSE_SENSE_DONE: only after power-on reset (14 R301) (notes/assumptions/3.md). -/
def State.fuseSense (s : State) (rs : List FuseReading) : State :=
  if s.boot.stage = .fuses then
    let s := (s.otpSense rs).readSysArea
    { s with boot := { s.boot with stage := .image } }
  else s

end Sys2Proof.Machine
end

