-- ==== Sys2Proof/Machine/Bus.lean ====
section
/-! DEFINITION. The address space (21 R419-R421): reads and writes of registers and memories by the host and the Stoker, with
presence (00 R2), access types (R8), complement pairs (R10), locks (R11), protected ranges (04 R97, 05 R127) and memory errors
(01 R29, R30). -/

namespace Sys2Proof.Machine

/-- How an access ended. -/
inductive Res where
  /-- served, or without effect under R2 -/
  | ok
  /-- names no register and no memory (R420) -/
  | unmapped
  /-- an uncorrectable memory error (01 R30) -/
  | memErr
  /-- a store into a protected or read-only range -/
  | prot
  /-- waits for room in the mirror's deferrable queue (17 R356) -/
  | wait
  deriving DecidableEq, Repr

/-- An address inside an absent unit (00 R2). -/
def State.unitAbsent (s : State) (a : Nat) : Bool :=
  match a / 0x10000 with
  | 5 => s.nStrings == 0
  | 12 => !s.hasPair
  | _ => false

/-- A register of an absent instance of a present unit (00 R2). -/
def State.instAbsent (s : State) (a : Nat) : Bool :=
  let o := a % 0x10000
  match a / 0x10000 with
  | 1 => (isDesc a && s.nCtx ≤ (a - 0x14000) / 128) || (0x400 ≤ o && o < 0x600 && s.nCtx ≤ (o - 0x400) / 4) ||
         (0x800 ≤ o && o < 0xA00 && s.nCtx ≤ (o - 0x800) / 4)
  | 2 => o < 0x3000 && s.nPhases ≤ o / 0x100
  | 3 => o < 0x600 && !s.chanOk (o / 16)
  | 5 => 0x1000 ≤ o && s.nStrings ≤ (o - 0x1000) / 0x100
  | 6 => 0x60 ≤ o && o < 0x70 && s.nPorts ≤ (o - 0x60) / 4
  | 11 => 0x100 ≤ o && s.nPorts ≤ (o - 0x100) / 0x20
  | 13 => 0x100 ≤ o && o < 0x200 && s.nDraft ≤ o % 0x80 / 4
  | _ => false

/-- An access to an absent unit or instance. -/
def State.absent (s : State) (a : Nat) : Bool := s.unitAbsent a || (inRegs a && (s.info (a - a % 4)).kind != .unmapped && s.instAbsent a)

/-- No register and no memory (R420). -/
def State.unmapped (s : State) (a : Nat) : Bool :=
  !(inProg a || inSram a || inLog a || inMram a || inMatrix a || s.unitAbsent a || (inRegs a && (s.info (a - a % 4)).kind != .unmapped))

/-! ### Reading -/

/-- SNS_RAW and SNS_VAL, and a channel's parameters (21 R422). -/
def State.snsRead (s : State) (o : Nat) : Word :=
  let c : Fin 96 := idx (o / 16)
  match o % 16 / 4 with
    | 2 => (s.sns.raw[c]).signExtend 32
    | 3 => s.sns.val[c]
    | _ => s.shReg (0x30000 + o)

/-- A register that its unit reads (notes/assumptions/58.md). -/
def State.unitRead (s : State) (ini : Initiator) (a : Nat) : State × Word :=
  let o := a % 0x10000
  match a / 0x10000 with
  | 0 => if o = 0x20 then s.tickLo ini else (s, s.sysRead ini o)
  | 1 => (s, s.fbxRead o)
  | 2 => (s, s.phsRead o)
  | 3 => (s, s.snsRead o)
  | 4 => (s, s.thmRead o)
  | 5 => (s, s.batRead o)
  | 6 => (s, s.embRead o)
  | 7 => (s, s.flush.logRead o)
  | 8 => (s, s.nvmRead o)
  | 9 => (s, s.otpRead o)
  | 10 => (if o % 0x1000 = 4 then s.drawn else s, s.twiRead ini o)
  | 11 => (s, s.stkRead o)
  | 12 => (s, s.pairRead o)
  | 13 => (s, s.dftRead o)
  | 14 => (s, s.seqRead o)
  | _ => (s, 0)

/-- A stored register word as read: what was written last (00 R8), of a parameter the shadow copy, of a complement pair the active
one; fields that the hardware adds (notes/assumptions/58.md). -/
def State.storedRead (s : State) (a : Nat) : Word :=
  if a = 0xA0000 then s.twiRead .spi 0
  else if a = 0x50008 then s.batRead 8
  else if a / 0x10000 = 3 then s.snsRead (a % 0x10000)
  else if (s.info a).kind = .par ∧ (s.info a).rwc = 0 then s.shReg a
  else s.reg a

/-- A word of a memory with SECDED (01 R29, R30). -/
def State.eccWord (s : State) (ini : Initiator) (a : Nat) : State × Word × Res :=
  let r := s.eccRead a (iniWord ini)
  if r.2 then (r.1, 0, .memErr) else (r.1, s.word a, .ok)

/-- The word at a 4-aligned address (notes/assumptions/58.md). -/
def State.rdWord (s : State) (ini : Initiator) (a : Nat) : State × Word × Res :=
  if s.absent a then (s.flagErr errAbsent a, 0, .ok)
  else if s.unmapped a then (s, 0, .unmapped)
  else if inMram a then (let r := s.nvRead ini a 4; (r.1, r.2, .ok))
  else if inRegs a then
    let k := (s.info a).kind
    if isDesc a then
      let r := s.eccRead a (iniWord ini)
      let c := s.fbx.ctx[(idx ((a - 0x14000) / 128) : Fin 128)]
      if r.2 then (r.1, 0, .memErr)
      else (r.1, (if k = .hw then (if a % 128 / 4 = 24 then c.traj else c.acff) else s.reg a &&& (s.descInfo a).mask), .ok)
    else if k = .sp then (let r := s.unitRead ini a; (r.1, r.2, .ok))
    else (s, s.storedRead a, .ok)
  else s.eccWord ini a

/-- An access of `n` bytes (1, 2 or 4) at an aligned address: the value, zero-extended (01 R27); an access to an absent unit or
instance is flagged with its own byte address (00 R2) (notes/assumptions/58.md). -/
def State.rd (s : State) (ini : Initiator) (a n : Nat) : State × Word × Res :=
  if s.absent a then (s.flagErr errAbsent a, 0, .ok)
  else if inMram a ∧ n ≠ 4 then (let r := s.nvRead ini a n; (r.1, r.2, .ok))
  else
    let r := s.rdWord ini (a - a % 4)
    (r.1, if n = 4 then r.2.1 else nw (r.2.1.toNat / 2 ^ (8 * (a % 4)) % 2 ^ (8 * n)), r.2.2)

/-! ### Writing -/

/-- Mask of the bytes that an access of `n` bytes at `a` writes (notes/assumptions/21.md). -/
def laneMask (a n : Nat) : Word := nw ((2 ^ (8 * n) - 1) * 2 ^ (8 * (a % 4)))

/-- The byte address of an access that writes these lanes of the word at `w` (21 R421). -/
def laneAt (w : Nat) (lane : Word) : Nat := w + (if bit lane 0 then 0 else if bit lane 8 then 1 else if bit lane 16 then 2 else 3)

/-- Words of a complement pair that was written whole: does the second half complement the first (R10)? -/
def pairMatches (ws : List Word) : Bool :=
  let k := ws.length / 2
  (List.range k).all fun i => ws.getD (k + i) 0 == ~~~ (ws.getD i 0)

/-- A complete pair takes effect under its register's own rules (R10); the bits a register does not have are not kept (R9). -/
def State.pairEffect (s : State) (ini : Initiator) (base : Nat) (ws : List Word) : State :=
  if (s.info base).kind = .par then
    let v := ws.getD 0 0 &&& (s.info base).mask
    (s.pushShadow ini base v).pushShadow ini (base + 4) (~~~ v)
  else
    let o := (base - 0x51000) % 0x100
    s.strPair (idx ((base - 0x51000) / 0x100)) (if o = 0x20 then 0 else if o = 0x30 then 1 else 2)
      ((ws.getD 1 0).setWidth 64 <<< 32 ||| (ws.getD 0 0).setWidth 64)

/-- A write of word `i` of an RWC register of `n` words: the words are compared as they were written (R10). -/
def State.pairWord (s : State) (ini : Initiator) (a n i : Nat) (v : Word) : State :=
  let base := a - 4 * i
  let others := s.openPairs.filter fun p => p.base ≠ base
  match s.openPairs.find? fun p => p.base = base with
  | none =>
    if i = 0 then { s with openPairs := others ++ [{ base := base, ini := ini, words := [v], since := s.now }] } else s.flagErr errPair a
  | some p =>
    if i = 0 then { s.flagErr errPair a with openPairs := others ++ [{ base := base, ini := ini, words := [v], since := s.now }] }
    else if p.ini ≠ ini ∨ p.words.length ≠ i then { s.flagErr errPair a with openPairs := others }
    else
      let ws := p.words ++ [v]
      if ws.length < n then { s with openPairs := others ++ [{ p with words := ws }] }
      else
        let s := { s with openPairs := others }
        if pairMatches ws then s.pairEffect ini base ws else s.flagErr errPair a

/-- SYS registers that their rules write: `v` holds the bytes written, `m` the word with them merged in. -/
def State.sysWrite (s : State) (o : Nat) (v m lane : Word) : State :=
  match o with
  | 0x10 => { s with sys := { s.sys with err := s.sys.err &&& ~~~ (v &&& 0xF0000000) } }
  | 0x18 => if bit v 31 then { s with sys := { s.sys with eccUncorr := false } } else s
  | 0x40 => s.clkCfgWrite m
  | 0x44 => { s with clk := { s.clk with linkLost := s.clk.linkLost && !bit v 9, refLost := s.clk.refLost && !bit v 8 } }
  | 0x48 => s.timeCfgWrite m
  | 0x4C => if bit v 6 then s.modTime fun t => { t with timeLost := false } else s
  | 0x58 =>
    let s := if bit v 0 then s.stepReq else s
    if bit v 1 then s.epochSetReq (bits v 16 16) else s
  | 0x60 => s.frameCfgWrite m
  | 0x64 => if bit v 1 then { s with stk := { s.stk with fDtrap := false } } else s
  | 0x68 => s.wdogWrite m (bit lane 31)
  | 0x84 => if bit v 31 then s.rstCmd (bits v 16 8) else s
  | 0x94 => if bit v 31 then s.pwrReq (bits v 0 2) (laneAt 0x94 lane) else s
  | _ => s

/-- LOG_RATE[i] words 0 and 1, word 2 being read-only; the recorder's other registers. -/
def State.logStore (s : State) (o : Nat) (v m lane : Word) : State :=
  if 0x100 ≤ o ∧ o < 0x500 then (if o % 16 < 8 then s.rateWrite (idx ((o - 0x100) / 16)) (o % 16 == 4) m else s)
  else s.logWrite o v lane

/-- THM registers with rules of their own. -/
def State.thmWrite (s : State) (o : Nat) (v m : Word) : State :=
  if o = 0x10 then (if bit v 31 then s.subst (idx (fld v 16 3)) (bits v 8 6) (bits v 0 6) else s)
  else if 0x400 ≤ o then
    let z : Fin 8 := idx ((o - 0x400) / 0x40)
    match o % 0x40 with
    | 0x00 => s.zcfgWrite z (m &&& 0xE000FFFF)
    | 0x04 => s.zmemWrite z false m
    | 0x08 => s.zmemWrite z true (m &&& 0xFF)
    | _ => s
  else s

/-- EMB registers but for the commands. -/
def State.embStore (s : State) (o : Nat) (v m : Word) : State :=
  if o = 0x48 then
    let before := s.slowWant
    (s.setReg 0x60048 (m &&& 0xFFFF)).withSlow before
  else if 0x1000 ≤ o then (if o % 64 = 0 then s.holderWrite (idx ((o - 0x1000) / 64)) m else s.setReg (0x60000 + o) m)
  else if o = 0x04 ∨ o = 0x40 ∨ o = 0x44 ∨ o = 0x50 then s.setReg (0x60000 + o) (m &&& (embInfo o).mask)
  else s.embWrite .twi0 o v

/-- STK registers. -/
def State.stkWrite (s : State) (o : Nat) (v m : Word) : State :=
  match o with
  | 0x04 => s.nodeWrite m
  | 0x0C => s.cluWrite m
  | _ => if 0x100 ≤ o ∧ o % 0x20 = 0 then s.portCtrl (idx ((o - 0x100) / 0x20)) m v else s

/-- A register that its unit writes. -/
def State.unitWrite (s : State) (ini : Initiator) (a : Nat) (v m lane : Word) : State :=
  let o := a % 0x10000
  match a / 0x10000 with
  | 0 => s.sysWrite o v m lane
  | 1 => s.fbxWrite ini o v
  | 2 => s.phsWrite ini o v lane
  | 4 => s.thmWrite o v m
  | 5 => s.batWrite o v lane
  | 7 => s.logStore o v m lane
  | 8 => s.nvmWrite ini o v m lane
  | 9 => s.otpWrite o v
  | 10 => s.twiWrite o v m lane
  | 11 => s.stkWrite o v m
  | 12 => s.pairWrite o v
  | 13 => if o = 0xA8 ∧ bit v 0 then s.dftClear else s
  | 14 => s.seqWrite o v
  | _ => s

/-- An address recorded during a write of a register's word is that of the access (21 R421). -/
def State.atByte (s old : State) (w a : Nat) : State :=
  if old.sys.err = 0 ∧ s.sys.err ≠ 0 ∧ s.sys.errAddr = nw w then { s with sys := { s.sys with errAddr := nw a } } else s

/-- An EMB register takes a write now, and the mirror's EMB record an entry; a write-off is an operation with its own (17 R353, R355). -/
def State.embApply (s : State) (ini : Initiator) (a : Nat) (v lane : Word) : State :=
  if a = 0x6005C then s.embWrite ini 0x5C (v &&& lane)
  else
    let m := merge (s.reg a) v lane
    let s := (s.embStore (a % 0x10000) (v &&& lane) m).atByte s a (laneAt a lane)
    if s.pr.role = .active then
      let s := s.embEntry 0x40 0 0 (nw a) m
      { s with emb := { s.emb with ops := s.emb.ops + 1 } }
    else s

/-- A write to the EMB block may take effect now: not in the handover (09 R234), at most six a tick with the operations of a paired
active (17 R355), and a write-off only where an operation is admitted (17 R367, R369). -/
def State.embFree (s : State) (a : Nat) : Bool :=
  !s.embHalted && (s.pr.role != .active || decide (s.emb.ops < 6)) && (a != 0x6005C || s.embAdmit)

/-- A write to the EMB block (17 R355): thread F may not in a paired active; one that may not take effect yet waits, and those after it.
EMB_HCMD waits as a command does. The halted unit of a standby keeps its mirrored state (01 R37) (notes/assumptions/25.md). -/
def State.embBus (s : State) (ini : Initiator) (a : Nat) (v lane : Word) : State :=
  let o := a % 0x10000
  if ini = .F ∧ s.pr.role = .active then s.flagErr errLocked a
  else if s.pr.role = .syncing ∨ s.pr.role = .synced then s
  else if o = 0x54 then s.embWrite ini o (v &&& lane)
  else if (embInfo o).kind = .sp ∧ o ≠ 0x5C ∧ ¬ (0x80 ≤ o ∧ o < 0xA0) then s
  else if s.emb.waitReg ≠ [] ∨ ¬ s.embFree a then { s with emb := { s.emb with waitReg := s.emb.waitReg ++ [(ini, a, v, lane)] } }
  else s.embApply ini a v lane

/-- Register writes that waited, at the next cycle 0 (17 R355). -/
def State.embRegs : List (Initiator × Nat × Word × Word) → State → State
  | [], s => s
  | (i, a, v, l) :: ws, s =>
    if s.embFree a then State.embRegs ws (s.embApply i a v l)
    else { s with emb := { s.emb with waitReg := (i, a, v, l) :: ws } }

def State.embRegTick (s : State) : State :=
  let ws := s.emb.waitReg
  State.embRegs ws { s with emb := { s.emb with waitReg := [] } }

/-- What waited for this tick is admitted once the deadlines and leases of its cycle 0 have acted (09 R214) (notes/assumptions/25.md). -/
def State.embRun (s : State) : State :=
  if s.emb.go && !s.embDue then State.embRegTick (State.embTick { s with emb := { s.emb with go := false } }) else s

/-- A register write at a 4-aligned address of a present instance (notes/assumptions/21.md). -/
def State.wrReg (s : State) (ini : Initiator) (a : Nat) (v lane : Word) : State :=
  let i := s.info a
  -- what was recorded before the write has passed the filter and the limits that stood then (12 R267)
  let s := if a / 0x10000 = 7 then s.flush else s
  if a / 0x10000 = 6 then s.embBus ini a v lane
  else if i.rwc ≠ 0 then
    (s.pairWord ini a i.rwc i.widx (merge (s.storedRead a) v lane)).mirWr ini a (merge (s.storedRead a) v lane)
  else match i.kind with
    | .par => s.pushLanes ini a (v &&& i.mask) lane
    | .hw => s.flagErr errLocked a
    | .rw =>
      let m := merge (s.reg a) v lane &&& i.mask
      (s.setReg a m).mirWr ini a m
    | .st =>
      let m := merge (s.reg a) v lane
      (s.unitWrite ini a (v &&& lane) m lane).mirWr ini a m
    | .sp =>
      let s := s.unitWrite ini a (v &&& lane) (merge (s.unitRead ini a).2 v lane) lane
      let s := s.mirWr ini a (v &&& lane)
      if 0xE0300 ≤ a ∧ a < 0xE0400 then s.mirSeq ini (idx ((a - 0xE0300) / 4)) else s
    | .unmapped => s

/-- A memory word changes; whole words are free of errors from then on (notes/assumptions/59.md). -/
def State.memStore (s : State) (a : Nat) (v lane : Word) : State :=
  let s := s.setWord a (merge (s.word a) v lane)
  if lane = 0xFFFFFFFF ∨ sget s.ecc a = some .corr then { s with ecc := sput s.ecc a none } else s

/-- A write of `n` bytes (1, 2 or 4) at an aligned address: the word's bytes from `v` up (notes/assumptions/20.md). -/
def State.wr (s : State) (ini : Initiator) (a n : Nat) (v : Word) : State × Res :=
  let w := a - a % 4
  let lane := laneMask a n
  let v := v <<< (8 * (a % 4))
  if s.absent a then (s.flagErr errAbsent a, .ok)
  else if s.unmapped a then (s, .unmapped)
  else if inLog a ∨ inMram a then (s, .prot)
  else if s.mirHold w && ini != .F then (s, .wait)
  else if inRegs a then ((s.wrReg ini w v lane).atByte s w a, .ok)
  else if inMatrix a then
    (if s.matrixInUse ((w - 0x18000) / 4) then (s, .prot) else ((s.memStore w v lane).mirWr ini w (merge (s.word w) v lane), .ok))
  else if inSram a && s.protHit a n then (s, .prot)
  else (s.memStore w v lane, .ok)

/-! ### The host's view (R420, 01 R30) -/

/-- A host read: what names nothing reads 0 and is flagged (notes/assumptions/58.md). -/
def State.hostRd (s : State) (ini : Initiator) (a n : Nat) : State × Word × Res :=
  let r := s.rd ini a n
  if r.2.2 = .unmapped then (r.1.flagErr errUnmapped a, 0, .unmapped) else r

/-- A host write: what names nothing has no effect and is flagged; a protected range refuses it. -/
def State.hostWr (s : State) (ini : Initiator) (a n : Nat) (v : Word) : State :=
  let r := s.wr ini a n v
  match r.2 with
  | .unmapped => r.1.flagErr errUnmapped a
  | .prot => r.1.flagErr errLocked a
  | _ => r.1

/-- A word written by an initiator as a step of its own (notes/assumptions/21.md). -/
def State.regWrite (s : State) (ini : Initiator) (a : Nat) (v : Word) : State := s.hostWr ini (a - a % 4) 4 v

end Sys2Proof.Machine
end

