-- ==== Sys2Proof/Machine/Bb.lean ====
section
/-! DEFINITION. The black box (12 R275-R277). -/

namespace Sys2Proof.Machine

/-- LOG_BB_CFG.log_pages and LOG_BB_BASE. -/
def State.bbLogPages (s : State) : Nat := fld (s.reg 0x70500) 16 12
def State.bbBase (s : State) : Nat := fld (s.reg 0x70504) 0 15

/-- First page of a slot (R276): B follows A at once. -/
def State.bbPage (s : State) (slotB : Bool) : Nat := s.bbBase + (if slotB then 13 + s.bbLogPages else 0)

/-- A register word as a read shows it, without the read's flags: absent units contribute zeros (R276). -/
def State.peek (s : State) (a : Nat) : Word := (s.rdWord .spi a).2.1

def State.peeks (s : State) (as : List Nat) : List Byte := as.flatMap fun a => wBytes (s.peek a)

/-- Eight page groups from words, filled with zeros. -/
def pageOf (bs : List Byte) : List Byte := (bs ++ List.replicate 64 0).take 64

/-- A record that the ring or staging holds: in the ring at `pos`, or staged with these bytes. -/
structure BbRec where
  seq : BitVec 16
  len : Nat
  pos : Option Nat
  bytes : List Byte
  deriving DecidableEq, Repr

/-- Insertion by age before `next`, the oldest sequence number first (R276); sequence numbers count modulo 2^16. -/
def insSeq (next : BitVec 16) (r : BbRec) : List BbRec → List BbRec
  | [] => [r]
  | q :: qs => if (next - 1 - q.seq).toNat < (next - 1 - r.seq).toNat then r :: q :: qs else q :: insSeq next r qs

/-- Whole records of severity at least `min_sev` that the ring and staging hold, in ascending sequence. -/
def State.bbRecords (s : State) : List BbRec :=
  let sev := fld (s.reg 0x70500) 0 3
  let ring := s.log.ents.filterMap fun e =>
    if e.real && decide (sev ≤ e.sev.toNat) then some { seq := e.seq, len := e.len, pos := some (logBase + e.pos % logRing), bytes := [] } else none
  let staged := s.log.staged.filterMap fun r =>
    if sev ≤ r.sev.toNat then some { seq := r.seq, len := r.bytes.length, pos := none, bytes := r.bytes } else none
  (ring ++ staged).foldl (fun acc r => insSeq s.log.seq r acc) []

/-- The newest records that fit in `room` bytes: `rs` is newest first, the answer oldest first (notes/assumptions/38.md). -/
def newestFit : List BbRec → Nat → List BbRec → List BbRec
  | [], _, acc => acc
  | r :: rs, room, acc => if r.len ≤ room then newestFit rs (room - r.len) (r :: acc) else acc

/-- A record's bytes; those in the ring are read from its memory (01 R29, R30; notes/assumptions/59.md). -/
def State.bbRead (acc : State × List Byte) (r : BbRec) : State × List Byte :=
  match r.pos with
  | none => (acc.1, acc.2 ++ r.bytes)
  | some a =>
    let q := acc.1.readAll (Config.codeOf 0x019 1 11) ((List.range ((r.len + 3) / 4)).map fun i => a + 4 * i)
    (q.1, acc.2 ++ q.1.readBytes a r.len)

/-- The bytes of the log pages: the newest records that fit in `k` pages (R276). -/
def State.bbLog (s : State) (k : Nat) : State × List Byte := (newestFit s.bbRecords.reverse (64 * k) []).foldl State.bbRead (s, [])

/-- The pages of a commit but for the seal: header, status, strings, records (R276) (notes/assumptions/38.md). -/
def State.bbPages (s : State) (sq : Word) (k : Nat) (recs : List Byte) : List (List Byte) :=
  let header := pageOf (wBytes 0x4B424258 ++ wBytes 1 ++ wBytes sq ++ wBytes (nw (13 + k)) ++ leBytes 6 s.time.tick.toNat ++
    leBytes 2 s.time.epoch.toNat ++ wBytes (nw recs.length) ++ wBytes (nw s.bbLogPages) ++ List.replicate 24 0 ++ wBytes 0 ++ wBytes 0xFFFFFFFF)
  let status := s.peeks [0x0C, 0x10, 0x14, 0x18, 0x64, 0x44, 0x4C, 0x10004, 0x10010, 0x10014, 0x10018, 0x1001C, 0x24010, 0x24014, 0xD0024, 0x5000C]
  let rails := s.peeks ((List.range 16).map fun g => 0x23044 + 0x100 * g)
  let embers := s.peeks ((List.range 12).map (fun i => 0x60010 + 4 * i) ++ [0x60008, 0x6004C])
  let str (b : Nat) : List Byte :=
    let a := 0x51000 + 0x100 * b
    s.peeks [a + 0x8C, a + 0x88, a + 0x10, a + 0x14, a + 0x30, a + 0x34, a + 0x40, a + 0x44]
  let strings := (List.range 8).map fun p => str (2 * p) ++ str (2 * p + 1)
  let log := (List.range k).map fun i => pageOf (recs.drop (64 * i))
  [header, pageOf status, pageOf rails, pageOf embers] ++ strings ++ log

/-- The CRC-32 that a seal holds: group 7 of the header is taken as 0. -/
def bbCrc (pages : List (List Byte)) : Word :=
  let bs := pages.flatten
  crc32 (bs.take 56 ++ List.replicate 8 0 ++ bs.drop 64)

def sealPage (pages : List (List Byte)) (sq : Word) : List Byte :=
  pageOf (List.replicate 48 0 ++ wBytes (bbCrc pages) ++ wBytes 0 ++ wBytes sq ++ wBytes (~~~ sq))

/-- PFAIL (R275): the first sample that shows PFAIL_N asserted; the log pages end with event 0x051 (notes/assumptions/38.md). -/
def State.pfailSeen (s : State) : State :=
  if !(s.pins.pfail && s.log.bb.armed && bit (s.reg 0x70500) 31 && s.cycle == 0 && !s.log.bb.busy) then s
  else
    let covered := (s.nvm.ng - s.nvLeft) / 10
    let modBb (s : State) (f : BbSt → BbSt) : State := { s with log := { s.log with bb := f s.log.bb } }
    let s := (modBb s fun b => { b with armed := false }).dev 0x051 6 [nw covered]
    let s := s.flushTo (1 + 0x051)
    if covered < 13 then (modBb s fun b => { b with skipped := true }).dev 0x053 6 [nw covered]
    else
      let k := min (covered - 13) s.bbLogPages
      let b := s.log.bb
      let slotB := b.valid && !b.slot
      let sq := b.seq + 1
      let (s, recs) := s.bbLog k
      let pages := s.bbPages sq k recs
      let first := s.bbPage slotB
      modBb s fun b => { b with busy := true, cSlot := slotB, cSeq := sq, cPages := BitVec.ofNat 12 k, sealDone := false,
                                queue := (pages ++ [sealPage pages sq]).zipIdx.map fun p => (first + p.2, p.1) }

/-- BB_DONE (R275): the seal has been written. -/
def State.bbDone (s : State) : State :=
  let b := s.log.bb
  if b.busy && b.sealDone then
    ({ s with log := { s.log with bb := { b with busy := false, sealDone := false, finished := true, valid := true, slot := b.cSlot, seq := b.cSeq, pages := b.cPages } } }).dev
      0x052 3 [nw b.cSlot.toNat, b.cSeq, nw (13 + b.cPages.toNat)]
  else s

/-! ### At boot (R277) -/

def State.nvBad (s : State) (off : Nat) : Bool := s.nvMark off == some .uncorr
/-- A byte of the store as validation reads it: 0 in an uncorrectable group (13 R281). -/
def State.nvClean (s : State) (off : Nat) : Byte := if s.nvBad off then 0 else s.nvByte off
/-- A word of the store. -/
def State.nvWord (s : State) (off : Nat) : Word := nw (leNat ((List.range 4).map fun i => s.nvClean (off + i)))

/-- A valid slot's sequence and its log pages (R276) (notes/assumptions/38.md). -/
def State.bbSlot (s : State) (slotB : Bool) : Option (Word × Nat) :=
  let base := 64 * s.bbPage slotB
  let sq := s.nvWord (base + 8)
  let n := (s.nvWord (base + 12)).toNat
  if s.nvWord base ≠ 0x4B424258 ∨ n < 13 ∨ sysArea < base + 64 * n then none
  else
    let tail := base + 64 * (n - 1)
    let pages := (List.range (n - 1)).map fun p => (List.range 64).map fun i => s.nvClean (base + 64 * p + i)
    if s.nvWord (tail + 48) = bbCrc pages ∧ s.nvWord (tail + 56) = sq ∧ s.nvWord (tail + 60) = ~~~ sq then some (sq, n - 13) else none

/-- The consumed word is offered to the gate as a single-group write (R277, 13 R284, R287) (notes/assumptions/38.md). -/
def State.offerConsumed (s : State) : State :=
  match s.log.bb.consumeDue with
  | none => s
  | some page =>
    if 16 ≤ s.nvPages then s
    else if s.gateOpen 3 then
      let s := s.gateYes
      { s with nvm := { s.nvm with queue := s.nvm.queue ++ [{ src := .consumed, off := 64 * page + 56, data := wBytes 1 ++ wBytes (~~~ 1) }] }
               log := { s.log with bb := { s.log.bb with consumeDue := none } } }
    else s.gateNo 3

/-- BB_CONSUMED_WRITE: offered again in a later tick. -/
def State.bbConsumed (s : State) : State := s.offerConsumed

/-- The newest valid slot is reported; one not consumed is fresh. -/
def State.bbReport (s : State) : State :=
  let a := s.bbSlot false
  let b := s.bbSlot true
  let w := abWinner (a.map (·.1)) (b.map (·.1))
  match (if w = 1 then a else if w = 2 then b else none) with
  | none => s
  | some (sq, k) =>
    let page := s.bbPage (w == 2)
    let base := 64 * page
    let s : State := { s with log := { s.log with bb := { s.log.bb with valid := true, slot := w == 2, pages := BitVec.ofNat 12 k, seq := sq } } }
    if !s.nvBad (base + 56) && s.nvWord (base + 56) == 0 && s.nvWord (base + 60) == 0xFFFFFFFF then
      let s := ({ s with log := { s.log with bb := { s.log.bb with fresh := true, consumeDue := some page } } }).dev 0x054 4
        [bw (w == 2) 0, sq, s.nvWord (base + 16), s.nvWord (base + 20) &&& 0xFFFF]
      let s := (List.range 16).foldl (fun (s : State) (b : Nat) =>
        if bit (s.nvWord (base + 64 * (4 + b / 2) + 32 * (b % 2))) 24 then s.dev 0x60A 4 [nw b] else s) s
      s.offerConsumed
    else s

/-- BB_VALIDATION_DONE (19 R392 step 5). -/
def State.bbValidated (s : State) : State :=
  if s.boot.stage = .blackBox then { s.bbReport with boot := { s.boot with stage := .role } } else s

end Sys2Proof.Machine
end

