-- ==== Sys2Proof/Machine/Boot.lean ====
section
/-! DEFINITION. The boot path from the image on: slots, checks, loading, the pair role, the start of thread B (19 R392-R400). -/

namespace Sys2Proof.Machine

/-- A section of an image (R393). -/
structure Section where
  kind : Nat
  resv : Bool
  dest : Nat
  len : Nat
  off : Nat
  deriving DecidableEq, Repr

/-- An image's header (R393). -/
structure ImgHdr where
  magic : Word
  version : Half
  flags : Half
  len : Nat
  seq : Word
  profile : Half
  nSect : Nat
  entryB : Word
  entryR : Word
  resv : Word
  deriving DecidableEq, Repr

def slotOff (b : Bool) : Nat := if b then 0xC0000 else 0

/-- A byte of the store as the loader reads it: an uncorrectable group reads 0 (13 R281). -/
def State.imgByte (s : State) (off : Nat) : Byte := if s.nvBad off then 0 else s.nvByte off
def State.imgBytes (s : State) (off n : Nat) : List Byte := (List.range n).map fun i => s.imgByte (off + i)
def State.imgNum (s : State) (off n : Nat) : Nat := leNat (s.imgBytes off n)

def State.imgHdr (s : State) (b : Bool) : ImgHdr :=
  let o := slotOff b
  { magic := nw (s.imgNum o 4), version := BitVec.ofNat 16 (s.imgNum (o + 4) 2), flags := BitVec.ofNat 16 (s.imgNum (o + 6) 2),
    len := s.imgNum (o + 8) 4, seq := nw (s.imgNum (o + 12) 4), profile := BitVec.ofNat 16 (s.imgNum (o + 16) 2),
    nSect := s.imgNum (o + 18) 2, entryB := nw (s.imgNum (o + 20) 4), entryR := nw (s.imgNum (o + 24) 4), resv := nw (s.imgNum (o + 28) 4) }

def State.imgSections (s : State) (b : Bool) (n : Nat) : List Section :=
  (List.range n).map fun i =>
    let o := slotOff b + 32 + 16 * i
    { kind := s.imgNum o 1, resv := s.imgNum (o + 1) 3 != 0, dest := s.imgNum (o + 4) 4, len := s.imgNum (o + 8) 4, off := s.imgNum (o + 12) 4 }

/-- A section lies inside the image, and its destination inside its memory (R394 check 3) (notes/assumptions/15.md). -/
def Section.inRange (c : Section) (h : ImgHdr) : Bool :=
  let dst (lo hi : Nat) : Bool := decide (lo ≤ c.dest) && decide (c.dest + c.len ≤ hi)
  decide (32 + 16 * h.nSect ≤ c.off) && decide (c.off + c.len ≤ h.len - 4) &&
  (match c.kind with
   | 1 => dst 0x100000 0x140000
   | 2 | 3 => dst 0x200000 0x280000
   | 4 => dst 0x14000 0x18000 && c.dest % 4 == 0 && c.len % 4 == 0
   | 5 => dst 0x18000 0x20000 && c.dest % 4 == 0 && c.len % 4 == 0
   | 6 => c.len % 8 == 0
   | _ => false)

/-- The destinations of two sections overlap (notes/assumptions/15.md). -/
def sectClash (a b : Section) : Bool := a.kind != 6 && b.kind != 6 && decide (a.dest < b.dest + b.len) && decide (b.dest < a.dest + a.len)

def pairwiseOk : List Section → Bool
  | [] => true
  | c :: cs => cs.all (fun d => !sectClash c d) && pairwiseOk cs

/-- Checks 1 to 3 (R394): the reason of the first that fails (notes/assumptions/15.md). -/
def State.imgCheck3 (s : State) (b : Bool) : Nat :=
  let h := s.imgHdr b
  let cs := s.imgSections b h.nSect
  let okN := 1 ≤ h.nSect && h.nSect ≤ 64
  let entry (e : Word) : Bool := inProg e.toNat
  if h.magic ≠ 0x4C484B48 then 1
  else if h.version ≠ 1 || h.flags &&& 0xFFFE != 0 || h.resv != 0 || (okN && cs.any (·.resv)) then 2
  else if !(okN && h.len % 8 == 0 && 64 ≤ h.len && h.len ≤ 786432 && entry h.entryB && entry h.entryR && cs.all (·.inRange h) && pairwiseOk cs) then 3
  else 0

/-- SHA-256 as bytes. -/
def shaBytes (bs : List Byte) : List Byte := (sha256 bs).flatMap fun w => (wBytes w).reverse

/-- Checks 4 to 7 (R394, R396) (notes/assumptions/15.md). -/
def State.imgCheck7 (s : State) (b : Bool) : Nat :=
  let h := s.imgHdr b
  let o := slotOff b
  let bs := s.imgBytes o h.len
  let carried := (bs.drop (h.len - 36)).take 32
  let fused := (List.range 8).flatMap fun i => wBytes (s.fuse (32 + i))
  if crc32 (bs.take (h.len - 4)) ≠ nw (leNat (bs.drop (h.len - 4))) then 4
  else if s.secureBoot &&
      !(s.otp.region[(2 : Fin 16)] != 3 && bit h.flags 0 && shaBytes (bs.take (h.len - 36)) == carried && carried == fused) then 5
  else if h.profile &&& ~~~ s.feat ≠ 0 then 6
  else if (List.range (h.len / 8)).any fun g => s.nvBad (o + 8 * g) then 7
  else 0

/-! ### REGS sections (R397) -/

/-- The WO and W1C bits of a register word (notes/assumptions/15.md). -/
def cmdBits (a : Nat) : Word :=
  let o := a % 0x10000
  match a / 0x10000 with
  | 0 => (match o with | 0x10 => 0xF0000000 | 0x18 => 0x80000000 | 0x44 => 0x300 | 0x4C => 0x40 | 0x58 => 0xFFFF0003 | 0x64 => 2
                       | 0x84 | 0x94 => 0xFFFFFFFF | _ => 0)
  | 1 => if o = 4 then 8 else if o = 8 then 0xFFFFFFFF else 0
  | 2 => if o < 0x3000 ∧ o % 0x100 = 0x4C then 7 else 0
  | 4 => if o = 0x10 then 0xFFFFFFFF else 0
  | 5 => if o = 8 then 0xC0FF0000 else if 0x1000 ≤ o ∧ o % 0x100 = 0xA8 then 0xC0000000 else 0
  | 6 => if o = 0x54 ∨ o = 0x5C ∨ (0x80 ≤ o ∧ o < 0xA0) then 0xFFFFFFFF else 0
  | 7 => if o = 4 then 0x20000 else if o = 0x48 then 1 else 0
  | 8 => if o = 0x20 then 0xE0000000 else if o = 0x80 ∨ (0x100 ≤ o ∧ o ≤ 0x118) then 0xFFFFFFFF else 0
  | 9 => if o = 4 then 0xFFFFFFFF else 0
  | 10 => if o % 0x1000 = 8 then 0xF0000000 else if o % 0x1000 = 0x10 then 0xFFFFFFFF else 0
  | 11 => if 0x100 ≤ o ∧ o < 0x180 ∧ o % 0x20 = 0 then 3 else 0
  | 12 => if o = 4 then 0x04000000 else if o = 0x14 then 0xFFFFFFFF else 0
  | 13 => if o = 0xA8 then 1 else 0
  | 14 => if o = 4 then 0xFFFFFFFF else if 0x100 ≤ o ∧ o < 0x200 then 0x40000000 else if 0x300 ≤ o ∧ o < 0x400 then 0xFFFF else 0
  | _ => 0

/-- An entry that R397 forbids: of a register with WO or W1C fields and no field to write besides, whatever the word; of another, one that sets
such a field (notes/assumptions/15.md). -/
def State.regsForbid (s : State) (a : Nat) (v : Word) : Bool :=
  a ∈ [0x60, 0x68, 0x84, 0x94] || (0x23000 ≤ a && a < 0x24000 && a % 0x100 == 0x40) || s.unitAbsent a ||
    (cmdBits a != 0 && ((s.info a).kind == .sp || (cmdBits a &&& v) != 0))

/-- One entry is written: parameters to both copies (R393) (notes/assumptions/15.md). -/
def State.regsPut (s : State) (a : Nat) (v : Word) : State :=
  let i := s.info a
  if i.kind = .unmapped ∨ s.instAbsent a then s
  else if i.kind = .par then s.setReg a (if i.widx = 0 then v &&& i.mask else v)
  else s.wrReg .spi a v 0xFFFFFFFF

/-- The entries in order; `none` where R397 forbids one. An RWC register needs all its words at once (notes/assumptions/15.md). -/
def State.loadRegs (s : State) : Nat → List (Nat × Word) → Option State
  | 0, _ => some s
  | _, [] => some s
  | fuel + 1, (a, v) :: es =>
    let a := a - a % 4
    let i := s.info a
    if !inRegs a then State.loadRegs s fuel es
    else if s.regsForbid a v then none
    else if i.rwc = 0 then State.loadRegs (s.regsPut a v) fuel es
    else
      let ws := ((a, v) :: es).take i.rwc
      let chain := ws.zipIdx.all fun p => p.1.1 - p.1.1 % 4 == a + 4 * p.2
      if i.widx ≠ 0 ∨ ws.length ≠ i.rwc ∨ !chain ∨ !pairMatches (ws.map (·.2)) then none
      else
        let s := ws.zipIdx.foldl (fun (s : State) (p : (Nat × Word) × Nat) => s.regsPut (a + 4 * p.2) p.1.2) s
        State.loadRegs s fuel (es.drop (i.rwc - 1))

/-- Words of bytes. -/
def wordsOf : List Byte → List Word
  | a :: b :: c :: d :: t => nw (leNat [a, b, c, d]) :: wordsOf t
  | _ => []

def pairsOf : List Word → List (Nat × Word)
  | a :: v :: t => (a.toNat, v) :: pairsOf t
  | _ => []

/-- One section is loaded; the reason where it fails. DESIGN CHOICE: a machine's own table is no protected range while its actions are checked
here (notes/assumptions/15.md). -/
def State.loadSect (s : State) (o : Nat) (c : Section) : Except (Nat × LogSt) State :=
  let bs := s.imgBytes (o + c.off) c.len
  match c.kind with
  | 3 =>
    let s := s.setBytes c.dest bs
    match s.tblCheck c.dest with
    | some (r, off) => .error (8, (s.refuseTbl c.dest r off).log)
    | none => .ok (s.installTbl { addr := c.dest, len := s.tblLen c.dest, keep := false })
  | 4 => .ok ((wordsOf bs).zipIdx.foldl (fun (s : State) (p : Word × Nat) => s.setReg (c.dest + 4 * p.2) p.1) s)
  | 6 =>
    match s.loadRegs c.len (pairsOf (wordsOf bs)) with
    | some s => .ok s
    | none => .error (9, s.log)
  | _ => .ok (s.setBytes c.dest bs)

/-- The sections in order; a forbidden REGS entry (9) gives the slot's reason only where every table has passed (8) (R394). -/
def State.loadSects (o : Nat) : List Section → Bool → State → Except (Nat × LogSt) State
  | [], bad, s => if bad then .error (9, s.log) else .ok s
  | c :: cs, bad, s =>
    match s.loadSect o c with
    | .ok s => State.loadSects o cs bad s
    | .error e => if e.1 = 9 then State.loadSects o cs true s else .error e

/-- The image commits: contexts and phases take the committed configuration (R126, R397). -/
def State.imgCommit (s : State) : State :=
  let s := (fins 128).foldl (fun (s : State) (x : Fin 128) => s.ctxCommitted x 0 0) s
  s.phsCommitted ((List.range 48).map fun n => phA n 0x20)

/-- A slot's whole load: the loaded state, or the reason (R394) and the records that its tables gave (04 R98) (notes/assumptions/15.md). -/
def State.loadSlot (s : State) (b : Bool) : Except (Nat × LogSt) State :=
  let r3 := s.imgCheck3 b
  if r3 ≠ 0 then .error (r3, s.log)
  else
    let r7 := s.imgCheck7 b
    if r7 ≠ 0 then .error (r7, s.log)
    else
      let h := s.imgHdr b
      match State.loadSects (slotOff b) (s.imgSections b h.nSect) false s with
      | .error e => .error e
      | .ok t =>
        match schedCheck t t.reg with
        | some _ => .error (10, t.log)
        | none =>
          .ok { t.imgCommit with boot := { t.boot with
            slot := b, seq := h.seq, entryB := h.entryB, entryR := h.entryR, imgCrc := nw (s.imgNum (slotOff b + h.len - 4) 4) } }

/-- The slot tried first (R395). -/
def State.firstSlot (s : State) : Bool :=
  let ok (b : Bool) : Option Word := if s.imgCheck3 b = 0 then some (s.imgHdr b).seq else none
  abWinner (ok false) (ok true) == 2

/-- IMAGE_LOAD_DONE (R394, R395, R398) (notes/assumptions/3.md, 60.md). -/
def State.imageLoad (s : State) : State :=
  if s.boot.stage ≠ .image then s
  else
    let b := match s.boot.failed with | some f => !f | none => s.firstSlot
    match s.loadSlot b with
    | .ok t => State.dev { t with boot := { t.boot with stage := .blackBox } } 0x061 2 [nw b.toNat, t.boot.seq]
    | .error (e, l) =>
      let r : BitVec 4 := BitVec.ofNat 4 e
      let s : State := { s with log := l, boot := if b then { s.boot with reasonB := r } else { s.boot with reasonA := r } }
      let s := s.dev 0x062 6 [nw b.toNat, (s.imgHdr b).seq, nw e]
      if s.boot.failed.isSome then
        State.dev { s with boot := { s.boot with stage := .halted, halt := true } } 0x063 7 [s.boot.reasonA.setWidth 32, s.boot.reasonB.setWidth 32]
      else { s with boot := { s.boot with failed := some b } }

/-! ### Pair role and start (R399, R400) -/

/-- A standby's unit states (01 R37): Firebox and Stoker halted, ports in TRAINING, TWI1 and TWI2 idle. -/
def State.enterStandby (s : State) : State :=
  let s := s.retrainAll
  let s := s.twiRelease
  { s with fbx := { s.fbx with halted := true }, stk := { s.stk with fLive := false, bGated := false } }

/-- PAIR_CFG is read after loading (R399) (notes/assumptions/16.md). -/
def State.readPairCfg (s : State) : State :=
  let c := s.reg 0xC0000
  if s.hasPair && bit c 30 then State.setRole { s with boot := { s.boot with stage := .start, lastStep := s.now } } .witness 4
  else if s.hasPair && bit c 31 then
    { s with boot := { s.boot with roleEnd := some (s.now + 2000) }, pr := { s.pr with hdrAt := s.now, validAt := s.now } }
  else { s with boot := { s.boot with stage := .start, lastStep := s.now } }

/-- BB_VALIDATION_DONE (R392 steps 5 and 6). -/
def State.bbValidated2 (s : State) : State := if s.boot.stage = .blackBox then s.bbValidated.readPairCfg else s

/-- PAIR_ROLE_WINDOW_EXPIRE (R399) (notes/assumptions/16.md). -/
def State.roleWindow (s : State) : State :=
  match s.boot.roleEnd with
  | some e =>
    if s.boot.stage = .role ∧ e ≤ s.now then
      let s : State := { s with boot := { s.boot with stage := .start, lastStep := s.now, roleEnd := none } }
      if s.pins.witGrant then
        State.setRole { s with pr := { s.pr with solo := true } } .active 5
      else (s.enterStandby.setRole .syncing 5)
    else s
  | none => s

/-- BOOT (R400): in a tick after the last step (notes/assumptions/3.md, 60.md). -/
def State.bootDone (s : State) : State :=
  if s.boot.stage ≠ .start ∨ s.now ≤ s.boot.lastStep then s
  else
    let tk : BitVec 20 := s.time.tick.setWidth 20
    let s : State := { s with boot := { s.boot with stage := .done, ticks := tk } }
    let s : State := if s.runRole then { s with stk := { s.stk with b := .running, thB := { s.stk.thB with pc := s.boot.entryB } } } else s
    s.dev 0x060 3 [s.boot.cause.setWidth 32, nw s.boot.slot.toNat, s.boot.seq, tk.setWidth 32]

end Sys2Proof.Machine
end

