-- ==== Sys2Proof/Machine/Pmbus.lean ====
section
/-! DEFINITION. TWI target transactions: PMBus status and commands of TWI0, the host command queue, PMBUS_MAP entries
(15_two_wire.md R319-R329), and the SPI port (20 R417). -/

namespace Sys2Proof.Machine

def State.modHost (s : State) (f : HostSt → HostSt) : State := { s with host := f s.host }

/-- A port answers as a target: it has the role and does not sleep (R314, R318). -/
def State.answers (s : State) (i : Fin 3) : Bool := s.twiTarget i && !s.twi[i].asleep

/-! ### Status (R328) -/

/-- The conditions of STATUS_TEMPERATURE (R326). -/
def State.tempBits (s : State) : Byte :=
  let lvl (n : BitVec 2) : Bool := (fins 8).any fun z => s.zOn z && s.thm.zone[z].level == n
  (if lvl 2 then 0x80 else 0) ||| (if lvl 1 then 0x40 else 0)

/-- The conditions of STATUS_WORD that hold. -/
def State.statusConds (s : State) : Half :=
  let b (c : Bool) (i : Nat) : Half := if c then (1 : Half) <<< i else 0
  b (s.pins.acfail != 0) 13 ||| b (bits (s.reg 0xA0044) 0 8 != 0) 12 ||| b ((fins 16).any fun g => s.phs.rail[g].state == .latched) 6 |||
  b ((fins 48).any fun n => s.phs.ph[n].fault && s.phs.ph[n].cause == 3) 4 ||| b (s.host.stTemp != 0) 2 ||| b (s.host.stCml != 0) 1

/-- The latch at cycle 0. -/
def State.statusTick (s : State) : State :=
  let s := s.modHost fun h => { h with stTemp := h.stTemp ||| s.tempBits }
  let w := s.host.stWord ||| s.statusConds
  let w := if fld w 8 8 ≠ 0 ∧ fld w 1 7 = 0 then w ||| 1 else w
  s.modHost fun h => { h with stWord := w, released := h.released && (w &&& ~~~ h.stWord) == 0 }

/-- ALERT_N. -/
def State.alertN (s : State) : Bool :=
  !s.host.released && ((s.host.stWord &&& ~~~ (bits (s.reg 0xA0040) 0 16 : Half)) != 0 || s.anyHot)

/-! ### The host command queue (R321) -/

/-- Words of one transaction, in ascending address. -/
def State.wrWords (s : State) (a : Nat) : List Word → State
  | [] => s
  | w :: ws => State.wrWords (s.hostWr .twi0 (a % 2 ^ 32) 4 w) (a + 4) ws

/-- Bytes of a block entry: whole words, then single bytes (R423). -/
def State.wrBlock (s : State) (a : Nat) : Nat → List Byte → State
  | 0, _ => s
  | _, [] => s
  | n + 1, b0 :: b1 :: b2 :: b3 :: bs => State.wrBlock (s.hostWr .twi0 (a % 2 ^ 32) 4 (nw (leNat [b0, b1, b2, b3]))) (a + 4) n bs
  | n + 1, b :: bs => State.wrBlock (s.hostWr .twi0 (a % 2 ^ 32) 1 (b.setWidth 32)) (a + 1) n bs

/-- The bits written 1 of a status register clear; CLEAR_FAULTS clears every latched bit (R326, R328; notes/assumptions/42.md). -/
def State.clearStatus (s : State) (code : Byte) (v : Half) : State :=
  match code with
  | 0x03 => s.modHost fun h => { h with stWord := 0, stTemp := 0, stCml := 0 }
  | 0x78 => s.modHost fun h => { h with stWord := h.stWord &&& ~~~ (v &&& 0xFF) }
  | 0x79 => s.modHost fun h => { h with stWord := h.stWord &&& ~~~ v }
  | 0x7D => s.modHost fun h => { h with stTemp := h.stTemp &&& ~~~ (bits v 0 8) }
  | 0x7E => s.modHost fun h => { h with stCml := h.stCml &&& ~~~ (bits v 0 8) }
  | 0x80 => s.setReg 0xA0044 (s.reg 0xA0044 &&& ~~~ (v.setWidth 32))
  | _ => s

/-- The transaction runs. -/
def State.runTxn (s : State) : HostTxn → State
  | .status code v => s.clearStatus code v
  | .words a ws => s.wrWords a.toNat ws
  | .poke a n v => s.hostWr .twi0 a.toNat n v
  | .block a bs => s.wrBlock a.toNat bs.length bs
  | .emb op h w => (s.hostWr .twi0 0x60050 4 w).hostWr .twi0 0x60054 4 (if op.toNat < 16 then at_ op 28 ||| at_ h 0 else 0)

/-- The word addresses that a transaction writes through the mirror's queue; of a block those of its whole words and of its single bytes. -/
def HostTxn.addrs : HostTxn → List Nat
  | .words a ws => (List.range ws.length).map fun k => (a.toNat - a.toNat % 4 + 4 * k) % 2 ^ 32
  | .poke a _ _ => [a.toNat - a.toNat % 4]
  | .block a bs => ((List.range bs.length).filter fun k => k % 4 == 0 || decide (bs.length / 4 * 4 ≤ k)).map fun k =>
      let b := (a.toNat + k) % 2 ^ 32
      b - b % 4
  | .emb _ _ _ => []
  | .status _ _ => []

/-- A transaction, whose words are written without a gap (R321, R327), waits while the mirror's queue has no room for all its records
(17 R356) (notes/assumptions/20.md). -/
def State.txnHold (s : State) (t : HostTxn) : Bool :=
  let as := t.addrs.filter s.mirrored
  !as.isEmpty && decide (64 < s.pr.queue.length + (as.map mirNeed).sum)

/-- HOST_COMMAND_EXEC: the oldest committed transaction; it waits for room in the mirror's queue (17 R356) (notes/assumptions/20.md). -/
def State.hostExec (s : State) : State :=
  match s.host.queue with
  | [] => s
  | t :: q => if s.txnHold t then s else State.runTxn (s.modHost fun h => { h with queue := q }) t

/-- Every queued write runs before a read is served (notes/assumptions/42.md). -/
def State.hostDrain (s : State) : State := forN 8 (fun _ s => s.hostExec) s

/-- A committed write joins the queue; evpend.host marks a queue no longer empty (notes/assumptions/42.md). -/
def State.hostPush (s : State) (t : HostTxn) : State :=
  let s := if s.host.queue.isEmpty then s.evp 10 else s
  s.modHost fun h => { h with queue := h.queue ++ [t] }

/-- A read's bytes go to the bus. -/
def State.hostOut (s : State) (bs : List Byte) : State := s.modHost fun h => { h with out := bs }

/-- A transaction of TWI0 ends in STOP, which keeps the pointer, or goes on behind a repeated START, with the pointer it began with
kept aside (R319). -/
def State.ptrKeep (s : State) (stop : Bool) (p : Word) (n : Byte) : State :=
  s.modHost fun h => { h with saved := if stop then none else some (h.saved.getD (p, n)) }

/-! ### PEC (R322) -/

/-- PEC of a write: address byte, code, count of a block, data. -/
def writePec (addr : Nat) (code : Byte) (blk : Bool) (data : List Byte) : Byte :=
  crc8 ([BitVec.ofNat 8 (2 * addr), code] ++ (if blk then [BitVec.ofNat 8 data.length] else []) ++ data)

/-- The bytes of a read of a command code, and the PEC byte that a host which clocks one more is given. -/
def readPec (addr : Nat) (code : Byte) (data : List Byte) : List Byte :=
  data ++ [crc8 ([BitVec.ofNat 8 (2 * addr), code, BitVec.ofNat 8 (2 * addr + 1)] ++ data)]

/-- The PEC of a write is checked: a wrong one is not acknowledged, and one missing where it is required leaves the write
uncommitted. A PEC that is missing has no received value: the event shows a free one (notes/assumptions/9.md). -/
def State.pecOk (s : State) (i : Fin 3) (code : Byte) (blk : Bool) (data : List Byte) (pec : Option Byte) (req : Bool) : State × Bool :=
  let want := writePec (s.ownAddr i) code blk data
  let bad (s : State) (got : Word) (no : Bool) : State × Bool :=
    ((((s.modTwi i fun t => { t with pecErr := true }).dev 0x803 3 [nw i.val, code.setWidth 32, got, want.setWidth 32]).cmlSet 5).acked i no, false)
  match pec with
  | some p => if p = want then (s, true) else bad s (p.setWidth 32) true
  | none => if req then bad s.drawn (Config.freeWord s.freeCtr) false else (s, true)

def State.pecReq (s : State) (i : Fin 3) : Bool := bit (s.twiCfg i) 27

/-! ### Commands of TWI0 (R326, R327) -/

/-- A write of TWI0 that ends in STOP: it waits, the clock stretched, while the queue stays full; then its PEC is checked, and it
commits (R319, R321, R322; notes/assumptions/42.md). -/
def State.hostWrite (s : State) (code : Byte) (blk : Bool) (data : List Byte) (pec : Option Byte) (commit : State → State) : State :=
  let r := s.pecOk 0 code blk data pec (s.pecReq 0)
  if r.2 then ((commit r.1).ptrKeep true 0 0).acked 0 false else r.1.ptrKeep true 0 0

/-- A write is let in: the oldest transaction runs where the queue is full, and a write that still finds no place waits (R321). -/
def State.letIn (s : State) (f : State → State) : State :=
  if !s.answers 0 then s
  else
    let s := s.wakeSeen 0
    let s := if 8 ≤ s.host.queue.length then s.hostExec else s
    if 8 ≤ s.host.queue.length then s else f s

/-- A read is served only after every queued write has run; it waits for one that cannot run yet (R321). -/
def State.letRead (s : State) (f : State → State) : State :=
  if !s.answers 0 then s
  else
    let s := (s.wakeSeen 0).hostDrain
    if s.host.queue.isEmpty then f s else s

/-- A served read of a command (notes/assumptions/43.md). -/
def State.cmdRead (s : State) (code : Byte) (f : State → List Byte) : State :=
  s.letRead fun s => ((s.hostOut (readPec (s.ownAddr 0) code (f s))).ptrKeep true 0 0).acked 0 false

/-- A written status register, or CLEAR_FAULTS, goes through the queue as other writes do (R321, R328). -/
def State.statusPut (s : State) (code : Byte) (data : List Byte) (pec : Option Byte) : State :=
  s.letIn fun s => s.hostWrite code false data pec fun s => s.hostPush (.status code (BitVec.ofNat 16 (leNat data)))

/-- CLEAR_FAULTS (notes/assumptions/42.md). -/
def State.clearFaults (s : State) (pec : Option Byte) : State := s.statusPut 0x03 [] pec

/-- STATUS_BYTE. -/
def State.statusByte (s : State) (w : Option Byte) (pec : Option Byte) : State :=
  match w with
  | none => s.cmdRead 0x78 fun s => [bits s.host.stWord 0 8]
  | some v => s.statusPut 0x78 [v] pec

/-- STATUS_WORD. -/
def State.statusWord (s : State) (w : Option Half) (pec : Option Byte) : State :=
  match w with
  | none => s.cmdRead 0x79 fun s => leBytes 2 s.host.stWord.toNat
  | some v => s.statusPut 0x79 (leBytes 2 v.toNat) pec

/-- STATUS_TEMPERATURE. -/
def State.statusTemp (s : State) (w : Option Byte) (pec : Option Byte) : State :=
  match w with
  | none => s.cmdRead 0x7D fun s => [s.host.stTemp]
  | some v => s.statusPut 0x7D [v] pec

/-- STATUS_CML. -/
def State.statusCml (s : State) (w : Option Byte) (pec : Option Byte) : State :=
  match w with
  | none => s.cmdRead 0x7E fun s => [s.host.stCml]
  | some v => s.statusPut 0x7E [v] pec

/-- STATUS_MFR_SPECIFIC. -/
def State.statusMfr (s : State) (w : Option Byte) (pec : Option Byte) : State :=
  match w with
  | none => s.cmdRead 0x80 fun s => [bits (s.reg 0xA0044) 0 8]
  | some v => s.statusPut 0x80 [v] pec

/-- PMBUS_REVISION. -/
def State.pmbusRev (s : State) : State := s.cmdRead 0x98 fun _ => [0x33]

/-- A block read: count, then the bytes (notes/assumptions/43.md). -/
def blockOf (bs : List Byte) : List Byte := BitVec.ofNat 8 bs.length :: bs

/-- ASCII "TRELDELOS". -/
def State.mfrId (s : State) : State := s.cmdRead 0x99 fun _ => blockOf [0x54, 0x52, 0x45, 0x4C, 0x44, 0x45, 0x4C, 0x4F, 0x53]

/-- "SX9648", "SX9632", "SX9616", or "SX96--". -/
def modelBytes (part : Half) : List Byte :=
  [0x53, 0x58, 0x39, 0x36] ++ (if part = 0x9648 then [0x34, 0x38] else if part = 0x9632 then [0x33, 0x32] else if part = 0x9616 then [0x31, 0x36] else [0x2D, 0x2D])

def State.mfrModel (s : State) : State := s.cmdRead 0x9A fun s => blockOf (modelBytes s.otp.part)

/-- An access that a fixed rule refuses: STATUS_CML bit 6, and no acknowledgement unless the fault is found at STOP (R326). -/
def State.badData (s : State) (i : Fin 3) (atStop : Bool) : State := (s.cmlSet 6).acked i (!atStop)

/-- A block of a wrong length: one too long is refused at its count. Of one too short the row does not tell whether its count was right, so that
only STOP showed the fault, or wrong, so that it was not acknowledged: free (R326) (notes/assumptions/43.md). -/
def State.badBlock (s : State) (i : Fin 3) (short : Bool) : State :=
  if short then (s.drawn.cmlSet 6).acked i (bit (Config.freeWord s.freeCtr) 0) else s.badData i false

/-- MFR_ADDR: the access pointer and the read length; a write that a repeated START follows holds for the reads behind it, and for
good once the transaction ends in STOP (R319). -/
def State.mfrAddr (s : State) (w : Option (List Byte)) (pec : Option Byte) (stop : Bool) : State :=
  match w with
  | none => s.letRead fun s =>
      ((s.hostOut (readPec (s.ownAddr 0) 0xD0 (blockOf (wBytes s.host.ptr ++ [s.host.rlen])))).ptrKeep stop s.host.ptr s.host.rlen).acked 0 false
  | some bs =>
    s.letIn fun s =>
      let n := (bs.getD 4 0).toNat
      let end_ (t : State) : State := t.ptrKeep stop s.host.ptr s.host.rlen
      if bs.length ≠ 5 then end_ (s.badBlock 0 (decide (bs.length < 5)))
      else if n < 4 ∨ 32 < n ∨ n % 4 ≠ 0 then end_ (s.badData 0 false)
      else
        let r := s.pecOk 0 0xD0 true bs pec (s.pecReq 0 && stop)
        if r.2 then (end_ (r.1.modHost fun h => { h with ptr := nw (leNat (bs.take 4)), rlen := BitVec.ofNat 8 n })).acked 0 false else end_ r.1

/-- Words read for the host from `a` up: their bytes, and whether one was uncorrectable (01 R30). -/
def State.rdWords (s : State) (a : Nat) : Nat → State × List Byte × Bool
  | 0 => (s, [], false)
  | n + 1 =>
    let r := s.hostRd .twi0 (a % 2 ^ 32) 4
    let t := State.rdWords r.1 (a + 4) n
    (t.1, wBytes r.2.1 ++ t.2.1, r.2.2 == .memErr || t.2.2)

/-- MFR_DATA (R327): a write that a repeated START follows commits nothing; a read moves the pointer for good once its transaction
ends in STOP (R319). -/
def State.mfrData (s : State) (w : Option (List Byte)) (pec : Option Byte) (stop : Bool) : State :=
  match w with
  | none => s.letRead fun s =>
    let end_ (t : State) : State := t.ptrKeep stop s.host.ptr s.host.rlen
    if s.host.ptr.toNat % 4 ≠ 0 then end_ (s.badData 0 false)
    else
      let n := s.host.rlen.toNat
      let r := s.rdWords s.host.ptr.toNat (n / 4)
      (end_ ((r.1.modHost fun h => { h with ptr := h.ptr + nw n }).hostOut (readPec (s.ownAddr 0) 0xD1 (blockOf r.2.1)))).acked 0 r.2.2
  | some bs =>
    s.letIn fun s =>
      let end_ (t : State) : State := t.ptrKeep stop s.host.ptr s.host.rlen
      if s.host.ptr.toNat % 4 ≠ 0 ∨ 32 < bs.length then end_ (s.badData 0 false)
      else if bs.length < 4 ∨ bs.length % 4 ≠ 0 then end_ (s.badBlock 0 true)
      else if !stop then end_ s
      else s.hostWrite 0xD1 true bs pec fun s => (s.hostPush (.words s.host.ptr (wordsOf bs))).modHost fun h => { h with ptr := h.ptr + nw bs.length }

/-- MFR_EMB (R326, 09 R219). -/
def State.mfrEmb (s : State) (w : Option (List Byte)) (pec : Option Byte) : State :=
  match w with
  | none => s.cmdRead 0xD2 fun s => blockOf (wBytes (s.embRead 0x58))
  | some bs =>
    s.letIn fun s =>
      if bs.length ≠ 8 then (s.badBlock 0 (decide (bs.length < 8))).ptrKeep true 0 0
      else if leNat ((bs.drop 2).take 2) ≠ 0 then (s.badData 0 false).ptrKeep true 0 0
      else s.hostWrite 0xD2 true bs pec fun s => s.hostPush (.emb (bs.getD 0 0) (bs.getD 1 0) (nw (leNat (bs.drop 4))))

/-- MFR_TICK: TICK and epoch from one cycle. -/
def State.mfrTick (s : State) : State := s.cmdRead 0xD3 fun s => blockOf (leBytes 6 s.time.tick.toNat ++ leBytes 2 s.time.epoch.toNat)

/-- ALERT_RESPONSE (R328): the port's address in the upper seven bits, and a PEC for a host that clocks one (notes/assumptions/9.md, 43.md). -/
def State.alertResponse (s : State) : State :=
  if s.answers 0 && s.alertN then
    let b : Byte := BitVec.ofNat 8 (2 * s.ownAddr 0) ||| (Config.freeByte s.freeCtr &&& 1)
    (s.drawn.modHost fun h => { h with released := true }).hostOut [b, crc8 [0x19, b]]
  else s

/-! ### PMBUS_MAP (04 R112, R329) -/

/-- An entry of the installed PMBUS_MAP. -/
structure MapEnt where
  ports : Byte
  flags : Byte
  len : Nat
  addr : Nat
  xform : Nat
  expo : Int
  deriving DecidableEq, Repr

/-- The words of PMBUS_MAP as TWI0 and its sisters read them (01 R29, R30; notes/assumptions/59.md). -/
def State.mapWord (s : State) (a : Nat) : State × Word :=
  let r := s.eccRead a (Config.codeOf 0x019 1 10)
  (r.1, if r.2 then 0 else s.word a)

/-- The search of PMBUS_MAP for a code on a port: its entries read in turn up to the first that matches (04 R112, R326). -/
def State.mapFind (s : State) (i : Fin 3) (code : Byte) : List Nat → State × Option MapEnt
  | [] => (s, none)
  | a :: as =>
    let r := s.mapWord a
    if bits r.2 0 8 = code ∧ bit r.2 (8 + i.val) = true then
      let p := r.1.mapWord (a + 4)
      let q := p.1.mapWord (a + 8)
      (q.1, some { ports := bits r.2 8 8, flags := bits r.2 16 8, len := fld r.2 24 8, addr := p.2.toNat,
                   xform := fld q.2 0 8, expo := (bits q.2 8 8 : Byte).toInt })
    else r.1.mapFind i code as

/-- The entry of a code on a port. -/
def State.mapEnt (s : State) (i : Fin 3) (code : Byte) : State × Option MapEnt :=
  match s.table 3 0 with
  | none => (s, none)
  | some t =>
    let r := s.mapWord (t.addr + 16)
    r.1.mapFind i code ((List.range (fld r.2 0 16)).map fun k => t.addr + 20 + 12 * k)

/-- Single bytes read for the host. -/
def State.rdBytes (s : State) (a : Nat) : Nat → State × List Byte × Bool
  | 0 => (s, [], false)
  | n + 1 =>
    let r := s.hostRd .twi0 (a % 2 ^ 32) 1
    let t := State.rdBytes r.1 (a + 1) n
    (t.1, bits r.2.1 0 8 :: t.2.1, r.2.2 == .memErr || t.2.2)

/-- Bytes of a block read: words, then single bytes (R423). -/
def State.rdBlock (s : State) (a n : Nat) : State × List Byte × Bool :=
  let k := if a % 4 = 0 then n / 4 else 0
  let r := s.rdWords a k
  let t := r.1.rdBytes (a + 4 * k) (n - 4 * k)
  (t.1, r.2.1 ++ t.2.1, r.2.2 || t.2.2)

/-- A read of a mapped code: whole words and bytes of a block, or one access, converted as the entry says; the bytes, and whether a
word was uncorrectable (R329). -/
def State.mapGet (s : State) (m : MapEnt) : State × List Byte × Bool :=
  if !bit m.flags 0 then (s, List.replicate (max 1 m.len) 0xFF, false)
  else if bit m.flags 2 then
    let r := s.rdBlock m.addr m.len
    (r.1, blockOf r.2.1, r.2.2)
  else
    let r := s.hostRd .twi0 m.addr m.len
    (r.1, if m.xform = 0 then (wBytes r.2.1).take m.len else leBytes 2 (toLinear m.xform m.expo r.2.1).toNat, r.2.2 == .memErr)

/-- The transaction that a write of a mapped code commits. -/
def MapEnt.txn (m : MapEnt) (bs : List Byte) : HostTxn :=
  if bit m.flags 2 then .block (nw m.addr) bs
  else .poke (nw m.addr) m.len (if m.xform = 0 then nw (leNat bs) else ofLinear m.xform m.expo (BitVec.ofNat 16 (leNat bs)))

/-- A write of a mapped code whose length and PEC are right (R319, R322); TWI1 and TWI2 have no queue (notes/assumptions/42.md). -/
def State.mapPut (s : State) (i : Fin 3) (code : Byte) (m : MapEnt) (bs : List Byte) (pec : Option Byte) : State :=
  let want := if bit m.flags 2 ∨ m.xform = 0 then m.len else 2
  if !bit m.flags 1 then s.badData i false
  else if bs.length ≠ want then (if bit m.flags 2 then s.badBlock i (decide (bs.length < want)) else s.badData i (decide (bs.length < want)))
  else
    let t := m.txn bs
    let r := s.pecOk i code (bit m.flags 2) bs pec (s.pecReq i || bit m.flags 3)
    if !r.2 then r.1 else State.acked (if i = 0 then r.1.hostPush t else r.1.runTxn t) i false

/-- A code that TWI0 handles itself acts as its own command does (R326); CLEAR_FAULTS cannot be read, and answers as an unknown
code does (notes/assumptions/43.md). -/
def State.ownCode (s : State) (code : Byte) (w : Option (List Byte)) (pec : Option Byte) : State :=
  match w with
  | none =>
    match code with
    | 0x78 => s.statusByte none pec
    | 0x79 => s.statusWord none pec
    | 0x7D => s.statusTemp none pec
    | 0x7E => s.statusCml none pec
    | 0x80 => s.statusMfr none pec
    | 0x98 => s.pmbusRev
    | 0x99 => s.mfrId
    | 0x9A => s.mfrModel
    | 0xD0 => s.mfrAddr none pec true
    | 0xD1 => s.mfrData none pec true
    | 0xD2 => s.mfrEmb none pec
    | 0xD3 => s.mfrTick
    | _ => s.letRead fun s => ((s.hostOut [0xFF]).ptrKeep true 0 0).acked 0 false
  | some bs =>
    let bad (atStop : Bool) : State := s.letIn fun s => (s.badData 0 atStop).ptrKeep true 0 0
    let put (n : Nat) : State := if bs.length = n then s.statusPut code bs pec else bad (decide (bs.length < n))
    match code with
    | 0x03 => put 0
    | 0x79 => put 2
    | 0x98 | 0x99 | 0x9A | 0xD3 => bad false
    | 0xD0 => s.mfrAddr w pec true
    | 0xD1 => s.mfrData w pec true
    | 0xD2 => s.mfrEmb w pec
    | _ => put 1

/-- PMBUS_MAP_COMMAND (notes/assumptions/42.md, 43.md). -/
def State.mapCommand (s : State) (i : Fin 3) (code : Byte) (w : Option (List Byte)) (pec : Option Byte) : State :=
  if !s.answers i then s
  else if i = 0 ∧ code.toNat ∈ hwCodes then s.ownCode code w pec
  else
    let end_ (t : State) : State := if i = 0 then t.ptrKeep true 0 0 else t
    match w with
    | none =>
      let go (s : State) : State :=
        let e := s.mapEnt i code
        match e.2 with
        | none => end_ ((e.1.hostOut [0xFF]).acked i false)
        | some m =>
          let r := e.1.mapGet m
          end_ ((r.1.hostOut (readPec (s.ownAddr i) code r.2.1)).acked i r.2.2)
      if i = 0 then s.letRead go else go s
    | some bs =>
      let go (s : State) : State :=
        let e := s.mapEnt i code
        match e.2 with
        | none => end_ ((e.1.cmlSet 7).acked i true)
        | some m => if i ≠ 0 ∧ s.txnHold (m.txn bs) then s else end_ (e.1.mapPut i code m bs pec)
      if i = 0 then s.letIn go else go s

/-! ### SPI (20 R417) -/

/-- READ: words from a 4-aligned address up. -/
def State.spiRead (s : State) (a : Nat) : Nat → State × List Word
  | 0 => (s, [])
  | n + 1 =>
    let r := s.hostRd .spi (a % 2 ^ 32) 4
    let t := State.spiRead r.1 (a + 4) n
    (t.1, r.2.1 :: t.2)

/-- READ of `n` words. -/
def State.spiReadCmd (s : State) (a : Word) (n : Nat) : State :=
  let r := s.spiRead (a.toNat - a.toNat % 4) n
  { r.1 with spi := { r.1.spi with out := r.2 } }

/-- WRITE of 1 to 16 words; one that arrives while words wait is ignored, and words beyond 16 are discarded (notes/assumptions/44.md). -/
def State.spiWrite (s : State) (a : Word) (ws : List Word) : State :=
  if s.spi.buf.isEmpty then
    { s with spi := { s.spi with buf := (ws.take 16).zipIdx.map fun p => (nw (a.toNat - a.toNat % 4 + 4 * p.2), p.1) } }
  else s

/-- STATUS (notes/assumptions/44.md). -/
def State.spiStatus (s : State) : State :=
  { s with spi := { s.spi with status := if s.spi.buf.isEmpty then 0 else 1 } }

/-- A transaction of the host by its command byte: READ of `n` words, WRITE of the words `ws`, or STATUS; another byte is ignored until chip
select rises. Chip select is a wake source (19 R403). -/
def State.spiTxn (s : State) (cmd : Byte) (a : Word) (n : Nat) (ws : List Word) : State :=
  let s := s.wakeSeen 1
  match cmd with
  | 0x0B => s.spiReadCmd a n
  | 0x02 => s.spiWrite a ws
  | 0x05 => s.spiStatus
  | _ => s

/-- Queued words in order; one that must wait for the mirror's queue holds those behind it, and a reset empties the buffer (notes/assumptions/20.md, 44.md). -/
def State.spiDrain : List (Word × Word) → State → State
  | [], s => { s with spi := { s.spi with buf := [] } }
  | (a, w) :: q, s =>
    if s.mirHold a.toNat then { s with spi := { s.spi with buf := (a, w) :: q } }
    else
      let t := s.hostWr .spi a.toNat 4 w
      if t.spi.buf.isEmpty then t else State.spiDrain q t

/-- SPI_WRITE_APPLY: the queued words on consecutive served cycles (notes/assumptions/44.md). -/
def State.spiApply (s : State) : State := State.spiDrain s.spi.buf s

end Sys2Proof.Machine
end

