-- ==== Sys2Proof/Machine/Commit.lean ====
section
/-! DEFINITION. Shadow parameters at the commit: what an overrun discards, CONST under FREE, the schedule check, and the copying of
a set of writes (01 R20-R23; 05 R125, R136). -/

namespace Sys2Proof.Machine

/-- After an overrun the writes that thread F made to parameters in this tick, its re-arm requests, and the pairs on parameters that
it opened in this tick are dropped (R23). -/
def State.dropF (s : State) : State :=
  if s.stk.fDiscard then
    { s with shadow := s.shadow.filter fun w => w.ini ≠ .F,
             openPairs := s.openPairs.filter fun p => !(p.ini = .F && (s.info p.base).kind = .par && p.since = s.now),
             fbx := { s.fbx with ctx := s.fbx.ctx.map fun c => { c with rearm := c.rearm.filter fun i => i ≠ .F } },
             stk := { s.stk with fDiscard := false } }
  else s

/-- Contexts that faulted in this tick under FREE take CONST from held output 0, and writes to it are discarded (05 R136). -/
def State.takeConst (s : State) : State :=
  (fins 128).foldl (fun (s : State) (x : Fin 128) =>
    let c := s.fbx.ctx[x]
    if c.fresh then
      let s := s.modCtx x fun c => { c with fresh := false }
      if c.act = 2 then
        let a := s.constAddr x
        State.setReg { s with shadow := s.shadow.filter fun w => w.addr ≠ a, ecc := sput s.ecc a none } a c.rel[(0 : Fin 8)]
      else s
    else s) s

/-- The shadow copy of every register written in the tick, by rising address (R21). -/
def State.lastWrites (s : State) : List (Nat × Word) :=
  s.shadow.foldl (fun (m : List (Nat × Word)) w => sput m w.addr (some (s.shReg w.addr))) []

/-- The state as seen with a set of writes as its shadow. -/
def State.withShadow (s : State) (ws : List (Nat × Word)) : State :=
  { s with shadow := ws.map fun w => { ini := .B, addr := w.1, val := w.2 }, pr := { s.pr with sets := [] } }

/-- The schedule check of a set of writes (R124, R125): the breach, and the writes that remain. -/
def State.checkSet (s : State) (ws : List (Nat × Word)) : Option (Nat × Nat × Nat) × List (Nat × Word) :=
  let t := s.withShadow ws
  if ws.any fun w => t.isStructural w.1 then
    match schedCheck t t.shReg with
    | some b => (some b, ws.filter fun w => !t.isStructural w.1)
    | none => (none, ws)
  else (none, ws)

/-- Words copied to the active copy; a word written is free of errors. -/
def State.copySet (s : State) (ws : List (Nat × Word)) : State :=
  ws.foldl (fun (s : State) (w : Nat × Word) => State.setReg { s with ecc := sput s.ecc w.1 none } w.1 w.2) s

/-- A set of writes commits (R20, R124, R125). -/
def State.commitSet (s : State) (ws : List (Nat × Word)) : State :=
  let r := s.checkSet ws
  let s : State := match r.1 with
    | some (rule, kind, i) =>
      State.dev { s with fbx := { s.fbx with schedRej := true, rejRule := BitVec.ofNat 4 rule } } 0x102 5 [nw rule, nw kind, nw i]
    | none => s
  let old := s
  let s := s.copySet r.2
  let xs := (fins 128).filter fun x => r.2.any fun w => descAddr x.val 0 ≤ w.1 && w.1 < descAddr x.val 32
  let s := xs.foldl (fun (s : State) (x : Fin 128) => s.ctxCommitted x (old.desc x 0) (old.desc x 20)) s
  s.phsCommitted (r.2.map (·.1))

end Sys2Proof.Machine
end

