-- ==== Sys2Proof/Machine/Mirror.lean ====
section
/-! DEFINITION. The mirror as the active builds it: the records of a tick, the deferrable queue, parameter sets and SNAP records,
frames and their acknowledgement (17_pairing.md R352-R359, R369). -/

namespace Sys2Proof.Machine

def State.modPr (s : State) (f : PairSt → PairSt) : State := { s with pr := f s.pr }

/-! ### Records of the content tick (R353, R354 step 1) -/

/-- Raw codes of 12 bits each, packed from phase 0. -/
def packCodes (cs : List (BitVec 12)) : List Byte := leBytes 72 (cs.foldr (fun c n => c.toNat + 4096 * n) 0)

def unpackCodes (bs : List Byte) : List (BitVec 12) := (List.range 48).map fun i => BitVec.ofNat 12 (leNat bs / 4096 ^ i)

/-- One rail of a RAIL record: g, then cause, retries, n_run, inhibit, inreg, en_pending and state from bit 4 up (notes/assumptions/53.md). -/
def State.railWord (s : State) (g : Fin 16) : Word :=
  let r := s.phs.rail[g]
  nw g.val ||| at_ r.cause 4 ||| at_ r.retries 8 ||| nw (s.nRun g) <<< 12 ||| bw r.inhibit 18 ||| bw r.inreg 19 ||| bw r.enPending 20 |||
    nw r.state.code <<< 21

/-- The two maps of a PHASE record. -/
def State.phaseMaps (s : State) : List Byte :=
  let map (f : PhaseSt → Bool) : List Byte :=
    leBytes 6 ((fins 48).foldl (fun (m : Nat) (n : Fin 48) => if f s.phs.ph[n] then m + 2 ^ n.val else m) 0)
  map (·.fault) ++ map (·.burned)

/-- What is compared to find the zones of a THERM record. -/
def State.zoneKey (s : State) (z : Fin 8) : Word × BitVec 40 :=
  let k := s.thm.zone[z]
  (at_ k.level 0 ||| nw (4 * (match k.grace with | some t => t + 1 | none => 0)), k.failed)

/-- One zone of a THERM record. -/
def State.thermBytes (s : State) (z : Fin 8) : List Byte :=
  let k := s.thm.zone[z]
  let started := k.grace.isSome && (s.pr.lastZone[z].1 >>> 2) != (s.zoneKey z).1 >>> 2
  BitVec.ofNat 8 (z.val + 8 * k.level.toNat + 32 * started.toNat) :: leBytes 5 k.failed.toNat

/-- The EMB record of a tick in which the pool changed (notes/assumptions/53.md). -/
def State.embRecs (s : State) : List Rec :=
  let e := s.emb
  if e.seq != s.pr.lastEmb || e.acted || !e.entries.isEmpty || e.burnMap != 0 || e.enfDone != 0 then
    [mkRec 0x06 (leBytes 2 e.seq.toNat ++ leBytes 6 e.burnMap.toNat ++ leBytes 2 e.enfDone.toNat ++ e.entries.flatten)]
  else []

/-- The records of step 1, never deferred. -/
def State.stepRecs (s : State) : List Rec :=
  let xs := (fins 128).flatMap fun x =>
    if s.ctxEn x && bit (s.desc x 0) 30 then
      let mb := s.desc x 10
      let q : Fin 4 := idx (fld mb 28 2)
      [(q, mkRec (2 + q.val) ((s.fbx.xhat[q].toList.take (dims mb).1).flatMap wBytes))]
    else []
  let xhats := (fins 4).flatMap fun q => (xs.filter fun e => e.1 = q).map (·.2)
  let rails := ((fins 16).filter fun g => s.railWord g != s.pr.lastRail[g]).flatMap fun g => wBytes (s.railWord g)
  let zones := ((fins 8).filter fun z => s.zoneKey z != s.pr.lastZone[z]).flatMap s.thermBytes
  [mkRec 0x01 (packCodes (s.phs.ph.toList.map (·.raw)))] ++ xhats ++ s.embRecs ++
    (if rails = [] then [] else [mkRec 0x07 rails]) ++
    (if s.phaseMaps = s.pr.lastPhase then [] else [mkRec 0x08 s.phaseMaps]) ++
    (if zones = [] then [] else [mkRec 0x09 zones])

def recSize (rs : List Rec) : Nat := rs.flatten.length

/-! ### The deferrable queue, parameter sets and SNAP (R354-R357, R369) -/

/-- Records of the queue that fit, in order, and the rest. -/
def takeFit : Nat → List Rec → List Rec × List Rec
  | _, [] => ([], [])
  | room, r :: rs =>
    if r.length ≤ room then let t := takeFit (room - r.length) rs; (r :: t.1, t.2) else ([], r :: rs)

/-- Fragments of the pending sets fill the room; a set commits whole with its last fragment (R357) (notes/assumptions/53.md). -/
def State.sendSets : Nat → Nat → State → State × List Rec
  | 0, _, s => (s, [])
  | n + 1, room, s =>
    match s.pr.sets with
    | [] => (s, [])
    | p :: ps =>
      let k := (room - 6) / 8
      if k = 0 then (s, [])
      else
        let es := p.left.take k
        let rest := p.left.drop k
        let r := mkRec 0x14 (leBytes 2 p.num.toNat ++ leBytes 2 (p.frag + if rest.isEmpty then 0x8000 else 0) ++
          es.flatMap fun e => leBytes 4 e.1 ++ wBytes e.2)
        if rest.isEmpty then
          let s := (s.modPr fun q => { q with sets := ps }).commitSet p.all
          let s := if p.frames = 0 then s else s.dev 0xA02 3 [p.num.setWidth 32, nw (p.frames + 1)]
          let t := State.sendSets n (room - r.length) s
          (t.1, r :: t.2)
        else (s.modPr fun q => { q with sets := { p with left := rest, frag := p.frag + 1, frames := p.frames + 1 } :: ps }, [r])

/-- Bytes that the pending sets still need, up to the 48 that are kept for them (notes/assumptions/53.md). -/
def setNeed (sets : List PSet) : Nat := min 48 ((sets.map fun p => 6 + 8 * p.left.length).foldl (· + ·) 0)

/-- The Ember words that SNAP carries: addresses in ascending order. -/
def embSnapAddrs : List Nat := ((List.range 0xC0).map fun i => 0x60000 + 4 * i) ++ (List.range 0x1000).map fun i => 0x61000 + 4 * i

def embSnapIdx (a : Nat) : Nat := if a < 0x61000 then (a - 0x60000) / 4 else 0xC0 + (a - 0x61000) / 4

/-- Ranges (address, words) of a resynchronisation, ascending (R369): parameters, matrix store, thermal, battery, Ember and sequencer
state, installed tables (notes/assumptions/54.md). -/
def State.snapRanges (s : State) : List (Nat × Nat) :=
  let tbls := s.seq.tbls.foldl (fun (m : List (Nat × Nat)) t => sput m t.addr (some ((t.len + 3) / 4))) []
  [(0x10200, 16), (0x14000, 32 * s.nCtx), (0x18000, 8192)] ++ (List.range s.nPhases).map (fun n => (phA n 0, 14)) ++
  (List.range 16).map (fun g => (raA g 0, 16)) ++ [(0x30000, 384), (0x40018, 1), (0x40100, 40), (0x40200, 40), (0x40400, 128)] ++
  (if s.nStrings = 0 then [] else [(0x50004, 2)]) ++ (List.range s.nStrings).map (fun b => (0x51000 + 0x100 * b, 44)) ++
  [(0x60000, 0xC0), (0x61000, 0x1000), (0xD0004, 40), (0xD0100, s.nDraft), (0xE0000, 1), (0xE0100, 128), (0xE0400, 128)] ++ tbls

def inEmb (a : Nat) : Bool := 0x60000 ≤ a && a < 0x65000

/-- Words that a SNAP record carries, read by the mirror (01 R29, R30; notes/assumptions/59.md). -/
def State.snapRead (s : State) (a k : Nat) : State × List Word :=
  let as := (List.range k).map fun i => a + 4 * i
  ((s.readAll (Config.codeOf 0x019 1 12) as).1, as.map s.peek)

/-- SNAP records in the room that is left (notes/assumptions/53.md, 54.md). -/
def State.sendSnaps : Nat → Nat → State → State × List Rec
  | 0, _, s => (s, [])
  | n + 1, room, s =>
    match s.pr.snaps with
    | [] => (s, [])
    | (a, len) :: rest =>
      let k := min (min len 116) ((room - 6) / 4)
      if k = 0 then (s, [])
      else
        let s : State := if inEmb a && s.pr.embWords.isEmpty then s.modPr fun p => { p with embWords := embSnapAddrs.map s.peek } else s
        let (s, ws) := if inEmb a then (s, (List.range k).map fun i => s.pr.embWords.getD (embSnapIdx (a + 4 * i)) 0) else s.snapRead a k
        let r := mkRec 0x15 (leBytes 4 a ++ ws.flatMap wBytes)
        let left := if k < len then (a + 4 * k, len - k) :: rest else rest
        let more := left.any fun e => inEmb e.1
        let s := s.modPr fun p => { p with snaps := left, snapEmb := more && !p.embWords.isEmpty, embWords := if more then p.embWords else [] }
        let t := State.sendSnaps n (room - r.length) s
        (t.1, r :: t.2)

/-! ### The frame (R352) -/

/-- A frame's 500 bytes. -/
def frameBytes (flags seq ack : Byte) (tick : Word) (img : Half) (recs : List Byte) : List Byte :=
  let head := [flags, seq, ack, 0] ++ wBytes tick ++ leBytes 2 recs.length ++ leBytes 2 img.toNat
  let body := head ++ leBytes 2 (crc16 head).toNat ++ (recs ++ List.replicate 480 0).take 480
  [0xBC, 0xBC] ++ body ++ wBytes (crc32 body)

/-- A field of a frame. -/
def frNum (f : List Byte) (o n : Nat) : Nat := leNat ((f.drop o).take n)
def frByte (f : List Byte) (o : Nat) : Byte := f.getD o 0
/-- The header check: CRC-16 over bytes 2-13. -/
def frHeadOk (f : List Byte) : Bool := 16 ≤ f.length && (crc16 ((f.drop 2).take 12)).toNat == frNum f 14 2
/-- The frame check: CRC-32 over bytes 2-495. -/
def frOk (f : List Byte) : Bool := f.length == 500 && frHeadOk f && (crc32 ((f.drop 2).take 494)).toNat == frNum f 496 4

def State.imgLow (s : State) : Half := s.boot.imgCrc.setWidth 16

/-- A queued record as it is sent: a SEQ record carries its machine as the content tick leaves it (R353). -/
def State.sentRec (s : State) (r : Rec) : Rec :=
  if (r.getD 1 0).toNat / 4 = 0x11 then s.seqRec (idx (r.getD 2 0).toNat) else r

/-- One pass of cycle 599 of a paired active, with `n` bytes taken by step 1: queue, sets, burns and the pool's check. -/
def State.mirrorPass (s : State) (n : Nat) : State × List Rec × Nat :=
  let room := 480 - n
  let q := takeFit (room - setNeed s.pr.sets) s.pr.queue
  let s := s.modPr fun p => { p with queue := q.2 }
  let t := State.sendSets s.pr.sets.length (room - recSize q.1) s
  let recs := q.1.map s.sentRec ++ t.2
  (t.1.commitBurns.embCommit, recs, room - recSize recs)

/-- What is remembered of a frame once it is built. -/
def State.frameKept (s : State) (frame : List Byte) (used : Nat) : State :=
  let s : State := { s with emb := { s.emb with entries := [], burnMap := 0, enfDone := 0 } }
  s.modPr fun p => { p with
    frame := frame, used := BitVec.ofNat 9 used, lastEmb := s.emb.seq, lastPhase := s.phaseMaps,
    lastRail := Vector.ofFn s.railWord, lastZone := Vector.ofFn s.zoneKey }

/-- The mirror part of cycle 599: the frame of the tick, with the state as committed. Where the commit itself adds records to step
1, the pass is taken again with their room set aside. -/
def State.mirrorCommit (s : State) : State :=
  let n0 := recSize s.stepRecs
  let p0 := s.mirrorPass n0
  let n1 := recSize p0.1.stepRecs
  let p := if n1 ≤ n0 then p0 else s.mirrorPass n1
  let one := p.1.stepRecs
  let (t, snaps) := State.sendSnaps p.1.pr.snaps.length p.2.2 p.1
  let recs := (one ++ p.2.1 ++ snaps).flatten
  let flags : Byte := 0x40 ||| (if t.pr.snaps.isEmpty then 0x20 else 0) ||| (if t.pr.swapAnn then 4 else 0)
  t.frameKept (frameBytes flags (t.pr.txSeq + 1) t.pr.lastSeq (t.time.tick.setWidth 32) t.imgLow recs) recs.length

/-- The shadow writes of the tick form a parameter set (R357) (notes/assumptions/53.md). -/
def State.shutSet (s : State) : State :=
  if s.shadow.isEmpty then s
  else
    let ws := s.lastWrites
    State.modPr { s with shadow := [] } fun p => { p with sets := p.sets ++ [{ num := s.time.tick.setWidth 16, left := ws, all := ws }] }

/-- Cycle 0: the frame of the tick before starts (R352). -/
def State.frameStart (s : State) : State :=
  if s.pr.role == .active && !s.pr.frame.isEmpty && frByte s.pr.frame 3 == s.pr.txSeq + 1 then
    s.modPr fun p => { p with txSeq := p.txSeq + 1, sentF := (p.sentF.filter fun x => x.1 ≠ p.txSeq + 1) ++ [(p.txSeq + 1, s.now - 1)] }
  else s

/-- A standby's frame: flags, seq and ack, no records. -/
def State.standbyFrame (s : State) : List Byte :=
  let p := s.pr
  let flags : Byte := 0x80 ||| (if p.role = .synced then 0x20 else 0) ||| (if p.stale then 0x10 else 0) ||| (if p.role = .syncing ∧ ¬ p.snapSeen then 8 else 0)
  frameBytes flags (p.txSeq + 1) p.lastSeq (s.time.tick.setWidth 32) s.imgLow []

/-- STANDBY_FRAME_SEND. -/
def State.standbySend (s : State) : State :=
  if s.inStandby && s.awake then
    s.modPr fun p => { p with frame := s.standbyFrame, txSeq := p.txSeq + 1, used := 0 }
  else s

/-! ### Acknowledgement, loss and resynchronisation -/

/-- MIRROR_ACK (R358, R359, R369): a valid header of the standby. A request that stands once the first SNAP must have arrived (its frame
leaves a tick after PAIR_RESYNC, and is applied in the next) starts the resynchronisation again (notes/assumptions/54.md). -/
def State.mirrorAck (s : State) (f : List Byte) : State :=
  if !(s.pr.role == .active && frHeadOk f && fld (frByte f 2) 6 2 == 2) then s
  else
    let flags := frByte f 2
    let ack := frByte f 4
    let s := s.modPr fun p => { p with hdrAt := s.now, ackSeq := ack, lastSeq := frByte f 3, imgMm := frNum f 12 2 != s.imgLow.toNat }
    let s := match s.pr.sentF.find? fun e => e.1 = ack with
      | some e => (s.modPr fun p => { p with sentF := p.sentF.filter fun x => e.2 < x.2 }).releaseTo e.2
      | none => s
    let req := bit flags 3
    let unseen := match s.pr.resyncAt with | some t => decide (t + 3 ≤ s.now) | none => true
    let s := s.modPr fun p => { p with resyncReq := p.resyncReq || (req && (!p.peerReq || unseen)), peerReq := req }
    let s := if bit flags 4 && !s.pr.solo then s.modPr fun p => { p with downDue := some 4 } else s
    if bit flags 5 && !bit flags 4 then
      let s := if s.pr.solo then (s.modPr fun p => { p with solo := false, swapBase := some s.now }).evp 11 else s
      match s.pr.resyncAt with
      | some t => if s.pr.snaps.isEmpty then (s.modPr fun p => { p with resyncAt := none }).dev 0xA05 3 [nw (s.now - t)] else s
      | none => s
    else s

/-- Cycle 0: no header for solo_to ticks; no frame for 8 ticks (R359). -/
def State.linkTimeouts (s : State) : State :=
  if s.pr.role = .active then
    if !s.pr.solo && decide (s.pr.hdrAt + max 1 (fld (s.reg 0xC0000) 0 8) ≤ s.now) then s.modPr fun p => { p with downDue := some 5 } else s
  else if s.inStandby && !s.pr.stale && decide (s.pr.validAt + 8 ≤ s.now) then s.modPr fun p => { p with downDue := some 3 }
  else s

/-- PAIR_LINK_DOWN (R359): causes 0 CRC, 1 gap in seq, 2 Ember mismatch, 3 no frame, 4 the standby is stale, 5 no header (notes/assumptions/1.md, 12.md, 54.md). -/
def State.linkDown (s : State) : State :=
  match s.pr.downDue with
  | none => s
  | some c =>
    let s := s.modPr fun p => { p with downDue := none }
    let ev (s : State) : State := s.dev 0xA03 6 [Config.codeOf 0xA03 0 c]
    if s.pr.role = .active then
      if s.pr.solo then s else ev (((s.modPr fun p => { p with solo := true }).releaseTo s.now).evp 11)
    else if s.inStandby then
      let s := s.modPr fun p => { p with stale := true, rxSeq := none, rx := none, rxSet := [], snapSeen := false, embPh := 0, embLater := [] }
      ev (State.evp (if s.pr.role = .synced then s.setRole .syncing 6 else s) 11)
    else s

/-- PAIR_RESYNC (R369): SNAP records of everything, and the step 1 records of every rail, phase and zone again (notes/assumptions/54.md). -/
def State.pairResync (s : State) : State :=
  if s.pr.role == .active && s.pr.resyncReq then
    (s.modPr fun p => { p with
      resyncReq := false, resyncAt := some s.now, resyncs := satAdd p.resyncs 1, snaps := s.snapRanges, snapEmb := false, embWords := [],
      lastRail := Vector.replicate 16 0xFFFFFFFF, lastPhase := [], lastZone := Vector.replicate 8 (0xFFFFFFFF, 0) }).dev 0xA05 3 [0]
  else s

/-- A BAT record (R353). -/
def State.batRec (s : State) (b : Fin 16) (tk : Word) : Rec :=
  let k := s.bat.str[b]
  let q (v : BitVec 64) : List Byte := leBytes 8 v.toNat
  mkRec 0x12 ([BitVec.ofNat 8 b.val, 0, 0, 0] ++ wBytes tk ++ q (k.snap.v - k.empty) ++ q (k.snap.v - k.refQ) ++ q k.cap ++ q k.heldC ++
    wBytes k.refSigma ++ wBytes (at_ k.rcnt 0) ++ wBytes k.stat)

/-- The BAT records due at this tick join the queue (R356: string s from the boundary tick plus s onward). -/
def State.batMirror (s : State) : State :=
  if s.pr.role != .active then s
  else
    let due := s.pr.batDue.filter fun e => decide (e.2.2 ≤ s.now)
    due.foldl (fun (s : State) e =>
      if s.mirFull then s else (s.modPr fun p => { p with batDue := p.batDue.filter fun x => x ≠ e }).mirPush .B 0x12 (s.batRec e.1 e.2.1)) s

/-- At a slow-frame boundary of the active the records of the strings present fall due (11 R262). -/
def State.batMirrorSlow (s : State) : State :=
  if s.pr.role != .active then s
  else
    s.modPr fun p => { p with batDue := ((fins 16).filter fun b => decide (b.val < s.nStrings)).map fun b => (b, s.time.tick.setWidth 32, s.now + b.val) }

end Sys2Proof.Machine
end

