-- ==== Sys2Proof/Machine/Standby.lean ====
section
/-! DEFINITION. The mirror as the standby applies it: received frames, the records, replay of Ember operations, SNAP
(17_pairing.md R353, R355, R358, R369; 01 R37; 09 R234; 10 R245; 11 R262). -/

namespace Sys2Proof.Machine

/-- Frames apply in a standby, and in the two ticks after a swap has made it active (R367). -/
def State.mirrorsIn (s : State) : Bool :=
  s.inStandby || (s.pr.role == .active && s.pr.swapped && (match s.pr.handAt with | some h => decide (s.now ≤ h + 1) | none => false))

/-- MIRROR_FRAME (R352, R358, R359): a frame of the active is checked; one that fails its CRC or leaves a gap is not applied, and makes
a standby stale. -/
def State.mirrorFrame (s : State) (f : List Byte) : State :=
  if !s.mirrorsIn then s
  else
    let fail (s : State) (c : Nat) : State :=
      s.modPr fun p => { p with bad := satAdd p.bad 1, downDue := if p.role = .active then p.downDue else some c }
    if !frOk f || fld (frByte f 2) 6 2 != 1 then fail s 0
    else
      let s := s.modPr fun p => { p with hdrAt := s.now, validAt := s.now, imgMm := frNum f 12 2 != s.imgLow.toNat, swapAnn := bit (frByte f 2) 2,
                                         swapAt := if bit (frByte f 2) 2 then p.swapAt else none }
      match s.pr.rxSeq with
      | some q => if frByte f 3 = q + 1 then s.modPr fun p => { p with rx := some f } else fail s 1
      | none => s.modPr fun p => { p with rx := some f }

/-! ### Replay of Ember operations (R355) -/

/-- The pool as at the content tick: an unpaired unit on which nothing depends but the pool itself (notes/assumptions/55.md). -/
def State.replayBase (s : State) (at_ : Nat) : State :=
  { s with now := at_, pr := { s.pr with role := .unpaired, resumeAt := none, snapEmb := false },
           time := { s.time with tick := s.tickAt at_ }, thm := { s.thm with zone := Vector.replicate 8 {} },
           emb := { s.emb with held := [], waitMsg := [], waitHost := none, waitReg := [] } }

def iniOf (n : Nat) : Initiator := match n with | 0 => .F | 1 => .B | 2 => .spi | _ => .twi0

/-- One operation entry (notes/assumptions/55.md). -/
def State.replayEntry (s : State) (e : List Byte) : State :=
  let op := (frByte e 0).toNat
  let h : Fin 256 := idx (frByte e 1).toNat
  let src := frNum e 2 2
  let a := nw (frNum e 4 4)
  let w := nw (frNum e 8 4)
  let msg (k : EmbMsg) : State := s.runMsg { kind := k, p := idx (frByte e 1).toNat, src := BitVec.ofNat 14 src, xid := a, w := w }
  let host (o : HostOp) : State := s.runHost { ini := iniOf src, op := o, h := h, w := w }
  match op with
  | 0x01 => (s.embMint w (a.setWidth 8)).1
  | 0x02 => (s.embBurn w (a.setWidth 8)).1
  | 0x03 => (s.embGrant h w).1
  | 0x04 => if a = 0xFFFFFFFF then (s.thmRevokes (idx h.val) w).1 else (s.embRevoke h w).1
  | 0x05 =>
    let ports := Vector.ofFn fun p : Fin 4 =>
      let q := s.link.port[p]
      if p.val = (frByte e 1).toNat % 4 then { q with st := 2, far := a.setWidth 14 } else { q with st := 1 }
    (State.embXfer { s with link := { s.link with port := ports } } w (a.setWidth 14)).1
  | 0x06 => s.writeOff (iniOf src) (idx (frByte e 1).toNat)
  | 0x11 => host .request
  | 0x12 => host .giveBack
  | 0x13 => host .renew
  | 0x14 => host .revokeAck
  | 0x21 => msg .offer
  | 0x22 => msg .commit
  | 0x23 => msg .cancel
  | 0x24 => msg .ask
  | 0x31 => msg .accept
  | 0x32 => msg .reject
  | 0x33 => msg .finished
  | 0x40 => s.embApply .twi0 a.toNat w 0xFFFFFFFF
  | _ => s

/-- An acknowledged enforcement write of a holder: in ENFORCE it completes the pend, and a limit that has been raised since is still to
be written (notes/assumptions/55.md). -/
def State.replayEnf (s : State) (v : Nat) : State :=
  if v < 0x8000 then s
  else
    let h : Fin 256 := idx (v % 0x8000)
    let enf (r : HolderSt) (more : Bool) : EnfSt := { need := more, rise := more, want := r.enf.want, sent := r.grant.v }
    if s.emb.hold[h].rstate = .enforce then
      (s.complete h 1).modHold h fun r => { r with rstate := .none, enforced := true, enfFail := false, enf := enf r (r.enf.need && r.enf.rise) }
    else s.modHold h fun r => { r with enforced := true, enfFail := false, enf := enf r false }

def chunks12 : Nat → List Byte → List (List Byte)
  | 0, _ => []
  | n + 1, bs => if bs.length < 12 then [] else bs.take 12 :: chunks12 n (bs.drop 12)

/-- An EMB record replayed: deadlines and leases of the content tick, entries, enforcement, burns; then the comparison of seq (notes/assumptions/55.md). -/
def State.replayEmb (s : State) (at_ : Nat) (b : Rec) : State :=
  let t := s.replayBase at_
  let t := (fins 256).foldl (fun (t : State) (h : Fin 256) => t.revokeDeadline h) t
  let t := (fins 256).foldl (fun (t : State) (h : Fin 256) => t.leaseExp h) t
  let t := (fins 32).foldl (fun (t : State) (i : Fin 32) => t.offerTimeout i) t
  let t := (chunks12 40 (b.drop 10)).foldl State.replayEntry t
  let t := t.replayEnf (frNum b 8 2)
  let burns := frNum b 2 6
  let t := (fins 48).foldl (fun (t : State) (n : Fin 48) =>
    if burns / 2 ^ n.val % 2 = 1 then (match t.pair (phA n 0x30) with | some w => t.burnNow w | none => t) else t) t
  let s : State := { s with emb := { t.emb with held := s.emb.held, waitMsg := s.emb.waitMsg, waitHost := s.emb.waitHost, waitReg := s.emb.waitReg, go := s.emb.go,
                                                snap := t.emb.hold.map fun h => h.grant.v, entries := [], burnMap := 0, enfDone := 0, ops := 0, acted := false },
                            regs := t.regs }
  if s.emb.seq.toNat = frNum b 0 2 then s else s.modPr fun p => { p with downDue := some 2 }

/-- An EMB record as it arrives: applied, kept while the Ember state is still arriving, or of no use before that. -/
def State.rxEmb (s : State) (at_ : Nat) (b : Rec) : State :=
  match s.pr.embPh with
  | 0 => s
  | 1 => s.modPr fun p => { p with embLater := p.embLater ++ [(at_, b)] }
  | _ => s.replayEmb at_ b

/-! ### SNAP (R369) -/

/-- One half of a 64-bit value. -/
def half64 (v : BitVec 64) (hi : Bool) (w : Word) : BitVec 64 :=
  if hi then (v &&& 0xFFFFFFFF) ||| (w.setWidth 64 <<< 32) else (v &&& 0xFFFFFFFF00000000) ||| w.setWidth 64

/-- The status bits of BAT_STR_STAT taken over. -/
def StrSt.withStat (k : StrSt) (w : Word) : StrSt :=
  { k with cutoff := bit w 30, below := bit w 29, learned := bit w 28, susLow := bit w 27, susHigh := bit w 26, held := bit w 25,
           wbPend := bit w 24, hasRef := bit w 23, lastFull := bit w 22, anchored := bit w 21 }

/-- TICK[31:0] of the slow-frame boundary whose snapshots stand in an elapsed tick. -/
def State.boundaryAt (s : State) (at_ : Nat) : Word := ((s.tickAt at_).setWidth 32 : Word) &&& ~~~ 1023

/-- A word of a string's status: charges are re-based on the standby's own snapshot of the boundary of the active's (11 R262), of which
the last two are kept; charge that the standby's own mismatch diverted stays its own (18 R372) (notes/assumptions/54.md). -/
def State.snapBat (s : State) (at_ : Nat) (b : Fin 16) (o : Nat) (w : Word) : State :=
  let hi := o / 4 % 2 = 1
  let q := s.pr.snapQ[b]
  let bd := s.pr.snapQAt[b]
  let own (k : StrSt) (old new : BitVec 64) : BitVec 64 :=
    if bd = s.bat.snapAt then k.snap.v - (q - new) else if bd = s.bat.prevAt then k.prevQ - (q - new) else old
  if o = 0x10 ∨ o = 0x14 then
    s.modPr fun p => { p with snapQ := upd p.snapQ b fun v => half64 v hi w, snapQAt := p.snapQAt.set b (s.boundaryAt at_) }
  -- the low half waits in the staging field until the high half has come
  else if o = 0x30 ∨ o = 0x94 then s.modStr b fun k => { k with snapLow := w }
  else s.modStr b fun k =>
    let v : BitVec 64 := half64 (k.snapLow.setWidth 64) true w
    if o = 0x34 then { k with empty := own k k.empty v }
    else if o = 0x40 ∨ o = 0x44 then { k with cap := half64 k.cap hi w }
    else if o = 0x58 ∨ o = 0x5C then { k with belowQ := half64 k.belowQ hi w }
    else if o = 0x88 then { k with soc := w }
    else if o = 0x8C then k.withStat w
    else if o = 0x90 then { k with refSigma := w }
    -- the reference charge lies at 0x94 (low half) and 0x98
    else if o = 0x98 then { k with refQ := own k k.refQ v }
    else if o = 0x9C then { k with refTick := w }
    else if o = 0xA0 ∨ o = 0xA4 then { k with heldC := half64 k.heldC hi w }
    else if o = 0xAC then { k with rcnt := w.setWidth 24 }
    else k

/-- A word of a transfer record; what the map does not show starts afresh (notes/assumptions/54.md). -/
def State.snapXfer (s : State) (i : Fin 32) (k : Nat) (w : Word) : State :=
  let s := s.modXfer i fun x =>
    match k with
    | 0 => { x with dir := bits w 30 2, st := bits w 27 3, port := bits w 14 2, node := bits w 0 14,
                    retryAt := s.now + s.tRetry, offerEnd := s.now + max 1 (fld s.embCfg 0 16) }
    | 1 => { x with xid := w }
    | 2 => { x with w := w }
    | _ => { x with opened := w }
  if k = 1 ∧ s.emb.xfer[i].dir = 1 ∧ s.emb.xid.toNat ≤ w.toNat then { s with emb := { s.emb with xid := w + 1 } } else s

/-- A word of a holder's status. -/
def State.snapHold (s : State) (h : Fin 256) (k : Nat) (w : Word) (at_ : Nat) : State :=
  s.modHold h fun r =>
    match k with
    | 2 => { r with grant := { r.grant with v := w } }
    | 3 => { r with grant := { r.grant with c := w } }
    | 4 => { r with pend := { r.pend with v := w } }
    | 5 => { r with pend := { r.pend with c := w } }
    | 7 => { r with req := w }
    | 8 =>
      let t := fld w 0 24
      let st : RevState := match fld w 29 3 with | 1 => .ask | 2 => .enforce | 3 => .wait | _ => .none
      { r with rstate := st, enforced := bit w 28, leaseExp := bit w 27, enfFail := bit w 26, deadline := at_ + t,
               lease := if st = .none ∧ t ≠ 0 then some (at_ + t) else none, enf := { need := st == .enforce || bit w 28, want := r.grant.v } }
    | _ => r

/-- A word of the pool's counters and status. -/
def State.snapPool (s : State) (o : Nat) (w : Word) : State :=
  let put (k : Cnt) : Cnt := if o % 8 = 0 then { k with v := w } else { k with c := w }
  let e := s.emb
  let e : EmbSt :=
    if o = 8 then { e with frozen := bit w 31, uncovered := bit w 29, seq := w.setWidth 16 }
    else if 0x10 ≤ o ∧ o < 0x18 then { e with total := put e.total }
    else if 0x18 ≤ o ∧ o < 0x20 then { e with free := put e.free }
    else if 0x20 ≤ o ∧ o < 0x28 then { e with granted := put e.granted }
    else if 0x28 ≤ o ∧ o < 0x30 then { e with transit := put e.transit }
    else if 0x30 ≤ o ∧ o < 0x38 then { e with pending := put e.pending }
    else if 0x38 ≤ o ∧ o < 0x40 then { e with debt := put e.debt }
    else if 0x60 ≤ o ∧ o < 0x70 then { e with ask := e.ask.set (idx ((o - 0x60) / 4) : Fin 4) w }
    else if 0x80 ≤ o ∧ o < 0xA0 then { e with reqmap := e.reqmap.set (idx ((o - 0x80) / 4) : Fin 8) w }
    else e
  { s with emb := e }

/-- A word of the thermal unit's status (10 R245). -/
def State.snapThm (s : State) (o : Nat) (w : Word) (at_ : Nat) : State :=
  if 0x100 ≤ o ∧ o < 0x1A0 then
    { s with thm := { s.thm with res := s.thm.res.set (idx ((o - 0x100) / 4) : Fin 40) (if bit w 16 then some (w.setWidth 16) else none) } }
  else if 0x200 ≤ o ∧ o < 0x2A0 then { s with thm := { s.thm with stamp := s.thm.stamp.set (idx ((o - 0x200) / 4) : Fin 40) w } }
  else
    s.modZone (idx ((o - 0x400) / 0x40)) fun z =>
      match o % 0x40 with
      | 0x20 => { z with level := bits w 30 2, grace := if bit w 29 then some (at_ + fld w 0 26) else none }
      | 0x24 => { z with failed := (z.failed &&& 0xFF00000000) ||| w.setWidth 40 }
      | 0x28 => { z with failed := (z.failed &&& 0xFFFFFFFF) ||| (w.setWidth 40 <<< 32) }
      | 0x2C => { z with tz := if bit w 16 then some (w.setWidth 16) else none, tzField := w.setWidth 16 }
      | _ => z

/-- A sequencer timer from its register word. -/
def tmrOf (w : Word) (at_ : Nat) : TimerSt :=
  let n := fld w 0 24
  { run := bit w 31, unit := bit w 30, exp := bit w 29, stop := if bit w 30 then 0 else at_ + n, left := if bit w 30 then n else 0 }

/-- A word of the sequencer's status. -/
def State.snapSeq (s : State) (o : Nat) (w : Word) (at_ : Nat) : State :=
  if 0x100 ≤ o ∧ o < 0x200 then s.modMach (idx ((o - 0x100) / 4)) fun m => { m with fault := bit w 30, state := bits w 0 5 }
  else if 0x200 ≤ o ∧ o < 0x300 then s.modMach (idx ((o - 0x200) / 4)) fun m => { m with ev := w.setWidth 16 }
  else if 0x400 ≤ o ∧ o < 0x600 then s.modTmr (idx ((o - 0x400) / 4)) fun _ => tmrOf w at_
  else s

/-- One word of a SNAP record. -/
def State.snapWord (s : State) (at_ a : Nat) (w : Word) : State :=
  let o := a % 0x10000
  if inMatrix a ∨ inSram a = true then { s.setWord a w with ecc := sput s.ecc a none }
  else
    let k := (s.info a).kind
    if k = .par ∨ k = .rw ∨ k = .st then State.setReg { s with ecc := sput s.ecc a none } a w
    else if k = .unmapped then s
    else match a / 0x10000 with
      | 4 => s.snapThm o w at_
      | 5 => if 0x1000 ≤ o then s.snapBat at_ (idx ((o - 0x1000) / 0x100)) (o % 0x100) w else s
      | 6 =>
        if 0x100 ≤ o ∧ o < 0x300 then s.snapXfer (idx ((o - 0x100) / 16)) (o % 16 / 4) w
        else if 0x1000 ≤ o then s.snapHold (idx ((o - 0x1000) / 64)) (o % 64 / 4) w s.pr.snapAt
        else s.snapPool o w
      | 14 => s.snapSeq o w at_
      | _ => s

/-- OFFERED records whose t_offer has passed by the content tick are CANCELLING in the active (09 R229, R234). -/
def State.offersDue (s : State) (at_ : Nat) : State :=
  { s with emb := { s.emb with xfer := s.emb.xfer.map fun x =>
      if x.dir = 1 ∧ x.st = 1 ∧ x.offerEnd ≤ at_ then { x with st := 2, retryAt := at_ + s.tRetry } else x } }

/-- The end of the Ember state: records that waited are replayed (R369 step 4). -/
def State.embSnapped (s : State) : State :=
  let l := s.pr.embLater
  l.foldl (fun (s : State) e => s.replayEmb e.1 e.2) (s.modPr fun p => { p with embPh := 2, embLater := [] })

/-- A SNAP record: of a resynchronisation whose first record, that of the lowest address, has arrived (notes/assumptions/54.md). -/
def State.rxSnap (s : State) (at_ : Nat) (b : Rec) : State :=
  let a := frNum b 0 4
  if !(s.pr.snapSeen || a == 0x10200) then s
  else
  let ws := wordsOf (b.drop 4)
  let s := s.modPr fun p => { p with snapSeen := true }
  let s := if inEmb a ∧ s.pr.embPh ≠ 1 then s.modPr fun p => { p with embPh := 1, snapAt := at_, embLater := [] } else s
  let s := ws.zipIdx.foldl (fun (s : State) (e : Word × Nat) => s.snapWord at_ (a + 4 * e.2) e.1) s
  let stop := a + 4 * ws.length
  let s := if inEmb a ∧ 0x65000 ≤ stop then s.embSnapped else s
  if inSram a then
    let cont := a = s.pr.snapEnd && (match s.pr.snapTbls.getLast? with | some t => decide (a < t + s.tblLen t) | none => false)
    s.modPr fun p => { p with snapTbls := if cont then p.snapTbls else p.snapTbls ++ [a], snapEnd := stop }
  else s

/-- The tables whose ranges arrived are installed in place of those the standby had (notes/assumptions/54.md). -/
def State.snapTables (s : State) : State :=
  if s.pr.snapTbls.isEmpty then s
  else
    let m := s.seq.mach
    let t := s.seq.tmr
    let s := s.pr.snapTbls.foldl (fun (s : State) a =>
      if (s.tblCheck a).isNone then s.installTbl { addr := a, len := s.tblLen a, keep := true } else s)
      { s with seq := { s.seq with tbls := [] } }
    State.modPr { s with seq := { s.seq with mach := m, tmr := t } } fun p => { p with snapTbls := [] }

/-! ### The other records (R353) -/

def rxRail (s : State) (at_ : Nat) (w : Word) : State :=
  s.modRail (idx (fld w 0 4)) fun r =>
    let st : RailState := match fld w 21 3 with
      | 1 => .softStart | 2 => .run | 3 => .burst | 4 => .softStop | 5 => .hiccup | 6 => .latched | _ => .off
    let moved := st != r.state
    { r with cause := bits w 4 4, retries := bits w 8 4, inhibit := bit w 18, inreg := bit w 19, enPending := bit w 20, state := st,
             entry := if moved then at_ else r.entry, startAt := if moved && st == .softStart then at_ else r.startAt,
             offEnd := if moved && st == .off then at_ + s.offMin (idx (fld w 0 4)) else r.offEnd }

/-- Shed phases of a rail, from the mirrored n_run: the highest-numbered healthy members beyond it (notes/assumptions/55.md). -/
def State.mirrorRun (s : State) (g : Fin 16) (n : Nat) : State :=
  let hs := (fins 48).filter (s.isHealthy g)
  let on := s.phs.rail[g].state != .off && s.phs.rail[g].state != .hiccup && s.phs.rail[g].state != .latched
  let put (shed : Bool) (s : State) (m : Fin 48) : State :=
    s.modPh m fun p => { p with rail := some g, shed := shed, rejoin := false }
  if on then (hs.drop n).foldl (put true) ((hs.take n).foldl (put false) s) else s

def State.rxRails (s : State) (at_ : Nat) (b : Rec) : State :=
  (wordsOf b).foldl (fun (s : State) w => (rxRail s at_ w).mirrorRun (idx (fld w 0 4)) (fld w 12 6)) s

/-- A PHASE record; the cause of a mirrored fault is not carried: free (notes/assumptions/55.md). -/
def State.rxPhases (s : State) (b : Rec) : State :=
  let f := frNum b 0 6
  let u := frNum b 6 6
  (fins 48).foldl (fun (s : State) (n : Fin 48) =>
    let flt := f / 2 ^ n.val % 2 = 1
    let newF := flt && !s.phs.ph[n].fault
    let cause : BitVec 4 := if newF then (Config.freeWord s.freeCtr).setWidth 4 else s.phs.ph[n].cause
    let s := if newF then s.drawn else s
    s.modPh n fun p => { p with fault := flt, burned := decide (u / 2 ^ n.val % 2 = 1), cause := cause }) s

/-- A THERM record: a grace window that has started began in the content tick; one that runs goes on until it expires, but for a zone
that releases, or that its temperature takes from level 1 to level 2 (10 R239, R242). -/
def State.rxTherm (s : State) (at_ : Nat) : Nat → Rec → State
  | 0, _ => s
  | n + 1, b =>
    if b.length < 6 then s
    else
      let k := (frByte b 0).toNat
      let z : Fin 8 := idx (k % 8)
      let lvl : BitVec 2 := BitVec.ofNat 2 (k / 8)
      let s := s.modZone z fun o => { o with
        level := lvl, failed := BitVec.ofNat 40 (frNum b 1 5),
        grace := if k / 32 % 2 = 1 then some (at_ + s.zGrace z)
                 else o.grace.filter fun e => decide (at_ < e) && lvl != 0 && !(o.level == 1 && lvl == 2 && frNum b 1 5 == 0) }
      State.rxTherm s at_ n (b.drop 6)

def State.rxSeqRec (s : State) (at_ : Nat) (b : Rec) : State :=
  let j : Fin 64 := idx (frByte b 0).toNat
  let k := frByte b 1
  let s := s.modMach j fun m => { m with state := bits k 0 5, fault := bit k 6, ev := BitVec.ofNat 16 (frNum b 2 2) }
  let s := s.modTmr (idx (2 * j.val)) fun _ => tmrOf (nw (frNum b 4 4)) at_
  s.modTmr (idx (2 * j.val + 1)) fun _ => tmrOf (nw (frNum b 8 4)) at_

/-- A BAT record: charges are re-based on the standby's own snapshot of the same boundary; without one the record is not applied
(11 R262) (notes/assumptions/55.md). -/
def State.rxBat (s : State) (b : Rec) : State :=
  let q (o : Nat) : BitVec 64 := BitVec.ofNat 64 (frNum b o 8)
  if nw (frNum b 4 4) ≠ s.bat.snapAt then s
  else s.modStr (idx (frByte b 0).toNat) fun k =>
    { k with empty := k.snap.v - q 8, refQ := k.snap.v - q 16, cap := q 24, heldC := q 32, refSigma := nw (frNum b 40 4),
             rcnt := BitVec.ofNat 24 (frNum b 44 4) }.withStat (nw (frNum b 48 4))

def psetPairs : Nat → List Byte → List (Nat × Word)
  | 0, _ => []
  | n + 1, b => if b.length < 8 then [] else (frNum b 0 4, nw (frNum b 4 4)) :: psetPairs n (b.drop 8)

/-- A PSET fragment; with the last one the set is applied to both copies (R357, R358). -/
def State.rxPset (s : State) (b : Rec) : State :=
  let frag := frNum b 2 2
  let s := s.modPr fun p => { p with rxSet := (if frag % 0x8000 = 0 then [] else p.rxSet) ++ psetPairs 60 (b.drop 4) }
  if 0x8000 ≤ frag then
    let ws := s.pr.rxSet
    let s := s.modPr fun p => { p with rxSet := [] }
    s.copySet (s.checkSet ws).2
  else s

/-- The records of a frame: kind and body. -/
def splitRecs : Nat → List Byte → List (Nat × Rec)
  | 0, _ => []
  | n + 1, bs =>
    if bs.length < 2 then []
    else
      let h := frNum bs 0 2
      (h / 1024, (bs.drop 2).take (h % 1024)) :: splitRecs n (bs.drop (2 + h % 1024))

/-- One record applied. -/
def State.applyRec (s : State) (at_ : Nat) (r : Nat × Rec) : State :=
  let b := r.2
  match r.1 with
  | 0x01 => s.modPr fun p => { p with refs := unpackCodes b }
  | 0x06 => s.rxEmb at_ b
  | 0x07 => s.rxRails at_ b
  | 0x08 => s.rxPhases b
  | 0x09 => s.rxTherm at_ 8 b
  | 0x10 => (s.wr .F (frNum b 0 4) 4 (nw (frNum b 4 4))).1
  | 0x11 => s.rxSeqRec at_ b
  | 0x12 => s.rxBat b
  | 0x13 => s.setBytes (frNum b 0 4) (b.drop 4)
  | 0x14 => s.rxPset b
  | 0x15 => s.rxSnap at_ b
  | k =>
    if 2 ≤ k ∧ k ≤ 5 then
      let ws := wordsOf b
      { s with fbx := { s.fbx with xhat := s.fbx.xhat.set (idx (k - 2) : Fin 4) (Vector.ofFn fun i => ws.getD i.val 0) } }
    else s

/-- MIRROR_APPLY (R358): the frame received is applied; with the last SNAP applied the standby is synced (R369 step 5) (notes/assumptions/54.md). -/
def State.mirrorApply (s : State) : State :=
  match s.pr.rx with
  | none => s
  | some f =>
    if !s.mirrorsIn then s.modPr fun p => { p with rx := none }
    else
      let tk := nw (frNum f 6 4)
      let at_ := s.now - ((s.time.tick.setWidth 32 : Word) - tk).toNat
      let s := s.modPr fun p => { p with rx := none, rxSeq := some (frByte f 3), lastSeq := frByte f 3, rxTick := tk, rxAt := some at_ }
      let s := (splitRecs 240 ((f.drop 16).take (min 480 (frNum f 10 2)))).foldl (fun (s : State) r => s.applyRec at_ r) s
      let s := s.offersDue at_
      if s.pr.role = .syncing ∧ s.pr.snapSeen ∧ s.pr.downDue = none ∧ bit (frByte f 2) 5 = true then
        (s.snapTables.modPr fun p => { p with stale := false }).setRole .synced 7
      else s

end Sys2Proof.Machine
end

