-- ==== Sys2Proof/Machine/Pair.lean ====
section
/-! DEFINITION. Interlock, handover and resumption, swaps, the witness, and the return of roles (17_pairing.md R345-R351, R360-R371;
06 R159, R160). -/

namespace Sys2Proof.Machine

/-! ### Pins and heartbeat (R346, R347, R349) -/

/-- GRANT_WITHDRAWN (R346): DAMPER_OUT and the gate fall (notes/assumptions/56.md). -/
def State.grantWithdrawn (s : State) : State :=
  if s.hasPair && s.pr.wit then (s.modPr fun p => { p with wit := false }).evp 11 else s

/-- DAMPER_IN_CHANGE (R347): the gate term closes at once, and opens once the level has been deasserted for 200 ns. In witness role
the pin is a heartbeat input (R351). -/
def State.damperChange (s : State) (level : Bool) : State :=
  if s.pr.role = .witness ∨ s.hasPair = false then s else (s.modPr fun p => { p with damperIn := level, gateOpen := !level }).evp 11

/-- The pair pins as sampled at cycle 0; a variant without the pair unit ignores them (20 R406). -/
def State.pairPins (s : State) : State :=
  if s.pr.role = .witness ∨ s.hasPair = false then s
  else
    let moved := s.pins.witGrant != s.pr.wit || s.pins.damperIn != s.pr.damperIn
    let s := s.modPr fun p => { p with wit := s.pins.witGrant, damperIn := s.pins.damperIn,
                                       gateOpen := !s.pins.damperIn && (p.gateOpen || !p.damperIn) }
    if moved then s.evp 11 else s

/-- The WIT_HB code of the tick, for a controller that PAIR_CFG.en paired at boot (R349, R361, R367, 19 R399). -/
def State.heartbeatCode (s : State) : BitVec 2 :=
  if s.pr.role == .witness || (s.pr.role == .unpaired && s.boot.stage != .role) then 0
  else if s.pr.faultOut || s.pr.role == .failed then 2
  else if s.pr.role == .active && s.pr.swapAnn && (match s.pr.swapAt with | some b => decide (b = s.now + 1) | none => false) then 3
  else 1

/-! ### Handover (R360-R365) -/

/-- r of PAIR_CFG.resume. -/
def State.resumeTicks (s : State) : Nat := max 2 (min 16 (fld (s.reg 0xC0000) 24 5))

/-- The tick from whose strobe the phases of a new active start (R362, R367). -/
def State.phaseStart (s : State) : Option Nat := s.pr.handAt.map fun h => if s.pr.swapped then h else h + 1

/-- What a role's end leaves behind in the mirror: nothing sent, nothing pending. -/
def PairSt.fresh (p : PairSt) : PairSt :=
  { p with queue := [], sets := [], sentF := [], frame := [], batDue := [], snaps := [], snapEmb := false, embWords := [], resyncAt := none,
           resyncReq := false, peerReq := false, swapAt := none, swapAnn := false, downDue := none, stale := false, solo := false, staleTx := false }

/-- Ticks since the content tick of the last frame applied: a window that crosses a handover keeps the ticks it had remaining in the mirrored
state (09 R234, 10 R245, 18 R386) (notes/assumptions/56.md). -/
def State.mirrorAge (s : State) : Nat := match s.pr.rxAt with | some t => s.now - t | none => 0

/-- A standby becomes active in handover tick h (R360, R362-R364): cause 6 of the role change is a fail-over, 8 a swap (notes/assumptions/56.md). -/
def State.handover (s : State) (swap : Bool) : State :=
  let bad := s.pr.role == .syncing || s.pr.stale
  let p := s.pr
  let s := s.setRole .active (if swap then 8 else 6)
  let s := s.dev 0xA01 6 (tickWords s.time.tick ++ [Config.codeOf 0xA01 2 swap.toNat, p.lastSeq.setWidth 32, p.rxTick, nw bad.toNat])
  let s := s.modPr fun q => { q.fresh with
    hand := q.hand + 1, solo := !swap, swapped := swap, handAt := some s.now,
    resumeAt := some (s.now + s.resumeTicks), hdrAt := s.now, swapBase := some s.now,
    rxSeq := if swap then q.rxSeq else none, rx := if swap then q.rx else none,
    lastEmb := s.emb.seq, lastPhase := s.phaseMaps, lastRail := Vector.ofFn s.railWord, lastZone := Vector.ofFn s.zoneKey }
  let s : State := { s with emb := { s.emb with frozen := s.emb.frozen || bad, held := [] },
                            thm := { s.thm with queue := [], stop := none,
                                                zone := s.thm.zone.map fun z => { z with grace := z.grace.map (· + (if swap then 0 else s.mirrorAge)) } },
                            bat := { s.bat with str := s.bat.str.map fun k => { k with vRun := 0, cutDue := false } } }
  ((fins 16).foldl (fun (s : State) (g : Fin 16) => s.modRail g fun r => { r with bandRun := 0, regRun := 0, shedRun := 0, burstRun := 0 }) s).evp 11

/-- PAIR_HANDOVER: the standby samples WIT_GRANT asserted (notes/assumptions/56.md). -/
def State.pairHandover (s : State) : State :=
  if s.inStandby && s.pins.witGrant && s.cycle == 0 then s.handover (s.pr.swapAnn && s.time.tick.toNat % 1024 == 0) else s

/-- The strobe from which the phases of a new active start: every phase that runs starts at its next period (R161, R362). -/
def State.startPhases (s : State) : State :=
  (fins 16).foldl (fun (s : State) (g : Fin 16) =>
    let st := s.phs.rail[g].state
    let s := s.loadOfs g
    (s.running g).foldl (fun (s : State) (n : Fin 48) => s.modPh n fun p => { p with car := g, startDue := st != .burst && !p.sw && !p.fault }) s)
    (s.zeroCarriers fun _ => true)

/-- The hold interval at a strobe (R362): the phases load the codes of the last REFS. -/
def State.holdRefs (s : State) : State :=
  let s := (fins 48).foldl (fun (s : State) (n : Fin 48) =>
    if n.val < s.nPhases then s.modPh n fun p => { p with raw := s.pr.refs.getD n.val 2048, limA := none, scl := s.reg (phA n 0x14) } else s) s
  let s := s.loadEff
  if s.phaseStart == some s.now then s.startPhases else s

/-- The tick after h: thread B starts at the resume entry, the watchdog is loaded, and after a fail-over the timers go on with the ticks they had
remaining (R362, R363, 03 R92); its registers stay and it is in no
trap (notes/assumptions/55.md). A thread B that a double trap halted stays so until reset (03 R83). -/
def State.handoverTick (s : State) : State :=
  match s.pr.handAt with
  | some h =>
    if s.pr.role = .active ∧ s.now = h + 1 then
      { s with
        seq := { s.seq with tmr := s.seq.tmr.map fun t => if t.run && !t.unit && !s.pr.swapped then { t with stop := t.stop + s.mirrorAge } else t }
        stk := { s.stk with b := if s.stk.b = .halted then .halted else .running, wdogCnt := s.wdogPeriod, thB := { s.stk.thB with pc := s.boot.entryR, intrap := false } } }
    else s
  | none => s

/-! ### Resumption (06 R159, R160) -/

/-- A mirrored reference code in amperes. -/
def State.refAmps (s : State) (n : Nat) : Word := fromCode (s.pr.refs.getD n 2048) (s.reg (phA n 0x14))

/-- The resume value of a context that drives a phase or a rail (rows 1 and 2). DESIGN CHOICE: of two phases or rails the first destination's is
taken, and a rail without a running phase gives no value (notes/assumptions/31.md). -/
def State.resumeDirect (s : State) (p : Plan) : Option Word :=
  let ds := p.outs.headD []
  match ds.find? fun d => selKind d = 1 with
  | some d => some (s.refAmps (selIdx d))
  | none =>
    match ds.find? fun d => selKind d = 3 with
    | some d => (s.running (idx (selIdx d)))[0]?.map fun n => s.refAmps n.val
    | none => none

/-- The resume value of an enabled class C context (R159): the first row that applies. -/
def State.resumeVal (s : State) (ps : List Plan) (x : Fin 128) : Word :=
  let own := (ps.find? fun p => p.x = x.val).bind s.resumeDirect
  match own with
  | some v => v
  | none =>
    let readers := ps.filter fun p => !p.cls && (let r := half (s.reg (descAddr p.x 2)) true
      (selKind r = 2 || selKind r = 3) && selCtx r = x.val) && (s.resumeDirect p).isSome
    match readers.filterMap s.resumeDirect with
    | [] => s.reg (s.constAddr x)
    | v :: vs => fDiv (vs.foldl fAdd v) (fNat (vs.length + 1))

/-- The Ember unit resumes (09 R234): every deadline, lease and offer with the ticks it had remaining in the mirrored state, `d` ticks ago, and
every open outgoing record is due to be sent again. -/
def State.embResume (s : State) (d : Nat) : State :=
  { s with emb := { s.emb with
      hold := s.emb.hold.map fun r => { r with deadline := r.deadline + d, lease := r.lease.map (· + d) }
      xfer := s.emb.xfer.map fun x => { x with offerEnd := x.offerEnd + d, retryAt := if x.dir = 1 then s.now else x.retryAt + d } } }

/-- RESUME_PRIMED: in tick h + r the contexts are primed, the Draft values are those of that tick (08 R210), and the Firebox computes. -/
def State.resumePrimed (s : State) : State :=
  match s.pr.resumeAt with
  | some t =>
    if s.pr.role = .active ∧ t ≤ s.now then
      let ps := plans s s.reg
      let old := s
      let cs := (fins 128).filter fun x => s.ctxEn x
      let s := cs.foldl (fun (s : State) (x : Fin 128) =>
        s.modCtx x fun c => { c with prime := if c.prime = .enabled then .enabled else if bit (old.desc x 0) 30 then .no else .resume (old.resumeVal ps x),
                                     fault := false, fresh := false, feRun := false, feTicks := 0, rearm := [] }) s
      let n := (cs.filter fun x => !bit (old.desc x 0) 30).length
      let s := State.dftForm { s with fbx := { s.fbx with halted := !s.awake } }
      ((s.embResume s.mirrorAge).modPr fun p => { p with resumeAt := none }).dev 0x106 3 ([nw n] ++ tickWords s.time.tick)
    else s
  | none => s

/-! ### Swaps (R366, R367) -/

/-- SWAP_CHECK at tick b - 3: reasons 1 not synced, 2 image differs, 3 a fault (notes/assumptions/12.md). -/
def State.swapCheck (s : State) : State :=
  match s.swapPlan with
  | none => s
  | some b =>
    if b = s.now + 3 ∧ ¬ s.pr.swapAnn then
      let why : Nat := if s.pr.solo then 1 else if s.pr.imgMm then 2 else if s.faultN || s.stk.safe || s.emb.frozen then 3 else 0
      if why = 0 then s.modPr fun p => { p with swapAnn := true, swapAt := some b }
      else (s.modPr fun p => { p with swapAt := none, swapBase := some b }).dev 0xA04 2 (tickWords (s.tickAt b) ++ [Config.codeOf 0xA04 2 why])
    else s

/-- A yields at b (R367, 01 R37): synced standby, its units' state as of b - 1, and no phase of its own switching. -/
def State.yieldRole (s : State) (b : Nat) : State :=
  let s := (s.enterStandby.setRole .synced 8).dev 0xA04 2 (tickWords (s.tickAt b) ++ [Config.codeOf 0xA04 2 0])
  let s : State := { s with stk := { s.stk with b := if s.stk.b = .halted then .halted else .notStarted, fLive := false }, pr := { s.pr.fresh with
    embPh := 2, rxSeq := none, rx := none, validAt := s.now, handAt := none, resumeAt := none, swapped := false } }
  let s := (fins 48).foldl (fun (s : State) (n : Fin 48) => s.modPh n PhaseSt.stop) s
  { s with emb := { s.emb with held := [], entries := [], burnMap := 0, enfDone := 0 } }

/-- PAIR_SWAP at boundary b: the active yields; the standby takes the grant. -/
def State.pairSwap (s : State) : State :=
  if s.pr.role = .active then
    match s.pr.swapAt with
    | some b => if s.pr.swapAnn && decide (b ≤ s.now) && s.cycle == 0 then s.yieldRole b else s
    | none => s
  else if s.pr.role == .synced && s.pr.swapAnn && s.pins.witGrant && s.cycle == 0 && decide (s.time.tick.toNat % 1024 = 0) then s.handover true
  else s

/-! ### The witness (R350, R351) -/

/-- The witness state changes; a grant that moves is an event of the pair unit (03 R80). -/
def State.modWit (s : State) (f : WitSt → WitSt) : State :=
  let w := f s.pr.witSt
  let moved := w.grantA != s.pr.witSt.grantA || w.grantB != s.pr.witSt.grantB
  let s := s.modPr fun p => { p with witSt := w }
  if moved then s.evp 11 else s
def ctlOther : Ctl → Ctl
  | .A => .B | .B => .A
def WitSt.granted (w : WitSt) (c : Ctl) : Bool := match c with | .A => w.grantA | .B => w.grantB
def WitSt.setGrant (w : WitSt) (c : Ctl) (g : Bool) : WitSt := match c with | .A => { w with grantA := g } | .B => { w with grantB := g }
def WitSt.setAlive (w : WitSt) (c : Ctl) (t : Option Nat) : WitSt := match c with | .A => { w with aliveA := t } | .B => { w with aliveB := t }
/-- A rising edge of a controller's heartbeat. -/
def WitSt.setEdge (w : WitSt) (c : Ctl) (t : Nat) : WitSt := match c with | .A => { w with edgeA := some t } | .B => { w with edgeB := some t }
def WitSt.edge (w : WitSt) (c : Ctl) : Option Nat := match c with | .A => w.edgeA | .B => w.edgeB
/-- Available: ALIVE within the last 3.0 us (notes/assumptions/56.md). -/
def WitSt.avail (w : WitSt) (c : Ctl) (now : Nat) : Bool :=
  match (match c with | .A => w.aliveA | .B => w.aliveB) with
  | some t => decide (now < t + 3)
  | none => false
/-- The grant moves to the other controller, if it is available. -/
def WitSt.move (w : WitSt) (c : Ctl) (now : Nat) : WitSt :=
  if w.granted c && (w.avail (ctlOther c) now || w.granted (ctlOther c)) then
    { (w.setGrant c false).setGrant (ctlOther c) true with swapping := false }
  else w

/-- WITNESS_ALIVE_PULSE: without a grant the first controller to become available is granted, and A where both become so in one tick
(19 R399) (notes/assumptions/16.md). -/
def State.witAlive (s : State) (c : Ctl) : State :=
  if s.pr.role ≠ .witness then s
  else s.modWit fun w =>
    let w := (w.setAlive c (some s.now)).setEdge c s.now
    if w.swapping && c == w.swapNew then { w.setGrant (ctlOther c) false with swapping := false }
    else if !w.grantA && !w.grantB then { w.setGrant c true with firstB := if c = .B then some s.now else none }
    else if c = .A ∧ w.grantA = false ∧ w.firstB = some s.now then { w with grantA := true, grantB := false, firstB := none }
    else w

/-- WITNESS_FAULT_PULSE. -/
def State.witFault (s : State) (c : Ctl) : State :=
  if s.pr.role ≠ .witness then s else s.modWit fun w => ((w.setAlive c none).setEdge c s.now).move c s.now

/-- WITNESS_SWAP_PULSE. -/
def State.witSwap (s : State) (c : Ctl) : State :=
  if s.pr.role ≠ .witness then s
  else s.modWit fun w =>
    let w := w.setEdge c s.now
    if w.granted c && !w.swapping && w.avail (ctlOther c) s.now then { w.setGrant (ctlOther c) true with swapping := true, swapNew := ctlOther c } else w

/-- WITNESS_HB_TIMEOUT: no edge from the granted controller for 3.2 us. -/
def State.witTimeout (s : State) : State :=
  if s.pr.role ≠ .witness then s
  else s.modWit fun w =>
    let c : Ctl := if w.swapping then ctlOther w.swapNew else if w.grantA then .A else .B
    if (match w.edge c with | some t => decide (s.now < t + 3) | none => false) then w else w.move c s.now

/-! ### Return of the lead and of the parent (R370, R371) -/

def State.retCfg (s : State) : Word := s.reg 0xC0020
def State.stab (s : State) : Nat := max 1 (fld s.retCfg 0 16)

/-- The conditions of the lead-return window. -/
def State.leadCond (s : State) : Bool :=
  bit s.retCfg 31 && fld (s.reg 0xB000C) 30 2 != 2 && s.pr.leadTake.isNone &&
  ((fins 4).all fun p => !bit s.retCfg (24 + p.val) || s.portUp p) && (s.timeRole == 2 || (s.isFollower && s.time.locked))

/-- The conditions of the parent-return window: SYNC messages arrive on the home port. -/
def State.homePort (s : State) : Fin 4 := idx (fld s.retCfg 28 2)
def State.parCond (s : State) : Bool :=
  bit s.retCfg 30 && s.timeRole == 1 && s.parentPort != s.homePort && s.portUp s.homePort &&
  (match s.link.port[s.homePort].syncAt with | some t => decide (s.now < t + 64) | none => false)

/-- Any lapse closes a window (notes/assumptions/56.md). -/
def State.retTick (s : State) : State :=
  s.modPr fun p => { p with leadWin := if s.leadCond then p.leadWin else none, parWin := if s.parCond then p.parWin else none }

/-- A slow-frame boundary: windows open, or come nearer to their expiry (notes/assumptions/56.md). -/
def State.retSlow (s : State) : State :=
  let next (c : Bool) (w : Option Nat) : Option Nat := if !c then none else match w with | none => some s.stab | some n => some (n - 1)
  s.modPr fun p => { p with leadWin := next s.leadCond p.leadWin, parWin := next s.parCond p.parWin }

/-- LEAD_HOME_EXPIRE (R370). -/
def State.leadHome (s : State) : State :=
  if s.pr.leadWin = some 0 then
    let b := s.now + 1024
    let m := mkMsg 1 0x30 0 s.node (wBytes ((s.tickAt b).setWidth 32) ++ leBytes 2 s.node)
    let s := (fins 4).foldl (fun (s : State) (p : Fin 4) => if bit s.retCfg (24 + p.val) && s.portUp p then s.ctrlPush p m else s) s
    s.modPr fun p => { p with leadWin := none, leadTake := some b }
  else s

/-- LEAD_ROLE_TAKE (R370): at B + 1,024. -/
def State.leadRoleTake (s : State) : State :=
  match s.pr.leadTake with
  | some t =>
    if t ≤ s.now then
      let old := fld (s.reg 0xB000C) 30 2 % 3
      let s := s.modPr fun p => { p with leadTake := none }
      if old = 2 then s
      else (s.cluWrite ((s.reg 0xB000C &&& 0x3FFFFFFF) ||| 0x80000000)).dev 0xA00 3 [Config.codeOf 0xA00 0 1, nw old, 2, Config.codeOf 0xA00 3 9]
    else s
  | none => s

/-- PARENT_HOME_EXPIRE (R371): the home port becomes parent and up_port. -/
def State.parentHome (s : State) : State :=
  if s.pr.parWin = some 0 then
    let h := s.homePort
    let old := s.parentPort
    let s := s.modPr fun p => { p with parWin := none }
    let s := s.timeCfgWrite ((s.reg 0x48 &&& 0xFFFFFFCF) ||| nw h.val <<< 4)
    let s := s.clkCfgWrite ((s.reg 0x40 &&& 0xFFFFFCFF) ||| nw h.val <<< 8)
    s.dev 0xA00 3 [Config.codeOf 0xA00 0 2, nw old.val, nw h.val, Config.codeOf 0xA00 3 10]
  else s

/-- The pair unit at cycle 0: pins, heartbeat, frame, timeouts, windows, the tick after a handover. -/
def State.pairTick (s : State) : State :=
  let s := (s.pairPins.frameStart.linkTimeouts).retTick.handoverTick
  s.modPr fun p => { p with hb := s.heartbeatCode, pmirUsed := 0 }

end Sys2Proof.Machine
end

