-- ==== Sys2Proof/Machine/Stoker.lean ====
section
/-! DEFINITION. The Stoker: threads, when an instruction runs, traps, overruns, registers, memory accesses and the operands of the
unit instructions (03_lerzia.md R56-R84). -/

namespace Sys2Proof.Machine

/-! ### Threads and registers (R56, R63, R64) -/

def State.th (s : State) : Thread → ThreadSt
  | .F => s.stk.thF
  | .B => s.stk.thB

def State.modTh (s : State) (th : Thread) (f : ThreadSt → ThreadSt) : State :=
  match th with
  | .F => { s with stk := { s.stk with thF := f s.stk.thF } }
  | .B => { s with stk := { s.stk with thB := f s.stk.thB } }

/-- A general register; g0 reads as 0 (R63). -/
def ThreadSt.reg (t : ThreadSt) (r : Reg) : Word := if r = 0 then 0 else t.g[r.toNat]'(r.isLt)
/-- A general register written; g0 discards writes (R63). -/
def ThreadSt.setReg (t : ThreadSt) (r : Reg) (v : Word) : ThreadSt := if r = 0 then t else { t with g := t.g.set r.toNat v r.isLt }
def ThreadSt.freg (t : ThreadSt) (r : FReg) : Word := t.f[r.toNat]'(r.isLt)
def ThreadSt.setFreg (t : ThreadSt) (r : FReg) (v : Word) : ThreadSt := { t with f := t.f.set r.toNat v r.isLt }
/-- Arithmetic flags are sticky (R64). -/
def ThreadSt.flag (t : ThreadSt) (f : BitVec 6) : ThreadSt := { t with fstat := t.fstat ||| f }

def State.gr (s : State) (th : Thread) (r : Reg) : Word := (s.th th).reg r
def State.fr (s : State) (th : Thread) (r : FReg) : Word := (s.th th).freg r
def State.setGr (s : State) (th : Thread) (r : Reg) (v : Word) : State := s.modTh th fun t => t.setReg r v
def State.setFr (s : State) (th : Thread) (r : FReg) (v : Word) : State := s.modTh th fun t => t.setFreg r v

/-- The initiator, and the origin of records, of a thread. -/
def iniTh : Thread → Initiator
  | .F => .F
  | .B => .B
def orgTh : Thread → Origin
  | .F => .F
  | .B => .B

/-- The special register `status` (R64). -/
def State.thStatus (s : State) (th : Thread) : Word :=
  match th with
  | .F => bw s.stk.thF.intrap 0 ||| bw s.stk.sf 1 ||| bw s.stk.povr 2
  | .B => bw s.stk.thB.intrap 0

/-! ### When an instruction runs (R57-R61, R86) -/

/-- The Stoker runs in this role and power state (01 R37, 19 R401). -/
def State.stokerOn (s : State) : Bool := s.runRole && s.awake

/-- Whether an instruction of the thread with this cost runs now: F in its live slice, from cycle 240, if it ends by the end of
cycle 539; B outside it, before the strobe only if it ends before cycle 240, after it only once F waits (02 R44, R60, R61)
(notes/assumptions/4.md, 10.md). -/
def State.canRun (s : State) (th : Thread) (cost : Nat) : Bool :=
  s.stokerOn &&
  (match th with
   | .F => s.stk.fLive && !s.stk.fHalted && decide (240 ≤ s.cycle) && decide (s.cycle + cost ≤ 540)
   | .B => s.stk.b == .running && !s.stk.bGated && !s.stk.fLive &&
      (!s.time.strobeDue || decide (s.cycle + cost ≤ 240)))

/-- An instruction's cycles pass (notes/assumptions/4.md). -/
def State.spend (s : State) (cost : Nat) : State := { s with cycle := min 599 (s.cycle + cost) }

/-- A slice of F is preempted or ends in a double trap (R83, R85, R86, 01 R23) (notes/assumptions/23.md). -/
def State.overrun (s : State) : State :=
  let n := satAdd s.stk.ovrConsec 1
  let lim := max 1 (fld (s.reg 0x60) 16 8)
  State.dev { s with stk := { s.stk with fLive := false, fOver := true, fDiscard := true, ovrConsec := n, ovrTotal := satAdd s.stk.ovrTotal 1,
                                         limitDue := s.stk.limitDue || decide (lim ≤ n.toNat) } } 0x031 5 [s.stk.thF.pc, n.setWidth 32]

/-- A trap (R82), or a double trap (R83) (notes/assumptions/23.md). -/
def State.trapEntry (s : State) (th : Thread) (cause : Nat) (val : Word) : State :=
  let t := s.th th
  if t.intrap then
    match th with
    | .F =>
      (State.dev { s with stk := { s.stk with fDtrap := true } } 0x032 6 [t.tcause, nw cause, t.tpc]).overrun
    | .B => State.dev { s with stk := { s.stk with b := .halted } } 0x033 7 []
  else
    let s := s.modTh th fun t => { t with tpc := t.pc, tcause := nw cause, tval := val, intrap := true, pc := t.tvec }
    (s.dev 0x030 3 [thWord th, nw cause, t.pc, val]).spend 2

/-- What an instruction comes to: the state, a trap with its cause and tval, the next program counter, or a wait before its access. -/
structure InsOut where
  s : State
  trap : Option (Nat × Word) := none
  pc : Option Word := none
  hold : Bool := false

/-- The effect of the instruction at the program counter, or the trap of a fetch that meets an uncorrectable error (R81 cause 0x08) (notes/assumptions/10.md). -/
def State.fetched (s : State) (th : Thread) (f : State → InsOut) : InsOut :=
  let r := s.eccRead (s.th th).pc.toNat (iniWord (iniTh th))
  if r.2 then { s := r.1, trap := some (0x08, (s.th th).pc) } else f r.1

/-- How an instruction ends: one that waits changes nothing; a trap is taken if its entry, of 2 cycles, ends in the thread's time
(R60, R61, R82); else the next program counter, and the cycles pass (notes/assumptions/11.md). -/
def State.ended (s : State) (th : Thread) (cost : Nat) (o : InsOut) : State :=
  if o.hold then s
  else match o.trap with
    | some (c, v) => if s.canRun th 2 then o.s.trapEntry th c v else s
    | none => (o.s.modTh th fun t => { t with pc := o.pc.getD (t.pc + 4) }).spend cost

/-- From cycle 540 on, a hard stop of the safe state has been done (R87). -/
def State.due540 (s : State) : State := if 540 ≤ s.cycle then s.hardStop else s

/-- One instruction of a thread at its program counter. An instruction that does not run changes nothing (notes/assumptions/10.md, 11.md). -/
def State.insn (s : State) (th : Thread) (cost : Nat) (f : State → InsOut) : State :=
  if s.canRun th cost then s.due540.ended th cost (s.due540.fetched th f) else s

/-- An instruction that only changes its thread's registers. -/
def State.alu (s : State) (th : Thread) (cost : Nat) (f : ThreadSt → ThreadSt) : State := s.insn th cost fun s => { s := s.modTh th f }

/-- An instruction that always traps (notes/assumptions/10.md). -/
def State.trapIns (s : State) (th : Thread) (cause : Nat) (val : Word) : State := s.insn th 2 fun s => { s := s, trap := some (cause, val) }

/-! ### Division (R73) -/

abbrev fIdz : BitVec 6 := 0x20
/-- Quotient or remainder with the flag of a zero divisor or of the overflow. -/
def divS (a b : Word) : Word × BitVec 6 :=
  if b = 0 then (0, fIdz) else if a = 0x80000000 ∧ b = 0xFFFFFFFF then (0x7FFFFFFF, fIdz) else (a.sdiv b, 0)
def divU (a b : Word) : Word × BitVec 6 := if b = 0 then (0, fIdz) else (a / b, 0)
def remS (a b : Word) : Word × BitVec 6 :=
  if b = 0 then (0, fIdz) else if a = 0x80000000 ∧ b = 0xFFFFFFFF then (0, fIdz) else (a.srem b, 0)
def remU (a b : Word) : Word × BitVec 6 := if b = 0 then (0, fIdz) else (a % b, 0)

/-! ### Instruction shapes -/

/-- Register-register operations. -/
def State.op3 (s : State) (th : Thread) (cost : Nat) (rd rs1 rs2 : Reg) (f : Word → Word → Word) : State :=
  s.alu th cost fun t => t.setReg rd (f (t.reg rs1) (t.reg rs2))
/-- The same with a flag. -/
def State.opDiv (s : State) (th : Thread) (rd rs1 rs2 : Reg) (f : Word → Word → Word × BitVec 6) : State :=
  s.alu th 34 fun t => (t.setReg rd (f (t.reg rs1) (t.reg rs2)).1).flag (f (t.reg rs1) (t.reg rs2)).2
/-- Register-immediate operations. -/
def State.opI (s : State) (th : Thread) (rd rs1 : Reg) (f : Word → Word) : State := s.alu th 1 fun t => t.setReg rd (f (t.reg rs1))

/-- FP operations with a result in an FP register and flags. -/
def State.fop (s : State) (th : Thread) (cost : Nat) (fd : FReg) (f : ThreadSt → Word × BitVec 6) : State :=
  s.alu th cost fun t => (t.setFreg fd (f t).1).flag (f t).2
/-- FP operations with a result in a general register. -/
def State.fopG (s : State) (th : Thread) (cost : Nat) (rd : Reg) (f : ThreadSt → Word × BitVec 6) : State :=
  s.alu th cost fun t => (t.setReg rd (f t).1).flag (f t).2

/-- FCLIP (R76): with a NaN fd the result is fs1, taken as any operand (notes/assumptions/9.md). -/
def fpClip (z1 z2 : Bool) (d lo hi : Word) : Word × BitVec 6 := if fIsNaN d then (fTake lo, fpNv) else (fpMin z2 (fpMax z1 d lo) hi, 0)
/-- FLT and FLE set nv on a NaN. -/
def nanNv (a b : Word) : BitVec 6 := if fIsNaN a || fIsNaN b then fpNv else 0
def bWord (b : Bool) : Word := if b then 1 else 0

/-- A jump target: in program SRAM and 4-aligned (R72, R73). -/
def goodPc (a : Word) : Bool := a.toNat % 4 == 0 && inProg a.toNat

/-- A conditional branch (R72): 2 cycles taken, 1 not taken. -/
def State.branch (s : State) (th : Thread) (rs1 rs2 : Reg) (off : BitVec 16) (c : Word → Word → Bool) : State :=
  let take := c (s.gr th rs1) (s.gr th rs2)
  s.insn th (if take then 2 else 1) fun s =>
    if take then
      let a := (s.th th).pc + 4 * sext off
      if goodPc a then { s := s, pc := some a } else { s := s, trap := some (0x03, a) }
    else { s := s }

/-- A jump with its return address. -/
def State.jump (s : State) (th : Thread) (rd : Reg) (target : State → Word) : State :=
  s.insn th 2 fun s =>
    let a := target s
    if goodPc a then { s := s.setGr th rd ((s.th th).pc + 4), pc := some a } else { s := s, trap := some (0x03, a) }

/-! ### Loads and stores (R67-R69) -/

/-- Cost of a load and of a store by target (notes/assumptions/11.md). -/
def loadCost (a : Nat) : Nat := if a < 0xF0000 then 3 else 2
def storeCost (a : Nat) : Nat := if a < 0xF0000 then 2 else 1

/-- One aligned read by a thread: the value, or a trap; the causes in the order of the tests (R67, R68; notes/assumptions/22.md). -/
def State.ldMem (s : State) (th : Thread) (a n : Nat) : State × Except (Nat × Word) Word :=
  if a % n ≠ 0 then (s, .error (0x04, nw a))
  else if inMram a ∧ th = .F then (s, .error (0x14, nw a))
  else
    let r := s.rd (iniTh th) a n
    match r.2.2 with
    | .unmapped => (r.1, .error (0x05, nw a))
    | .memErr => (r.1, .error (0x08, nw a))
    | _ => (r.1, .ok r.2.1)

/-- One aligned write by a thread: a trap, or `hold` where it waits for room in the mirror; the causes in the order of the tests
(R67, R68; notes/assumptions/22.md). -/
def State.stMem (s : State) (th : Thread) (a n : Nat) (v : Word) : InsOut :=
  if a % n ≠ 0 then { s := s, trap := some (0x04, nw a) }
  else if inMram a ∧ th = .F then { s := s, trap := some (0x14, nw a) }
  else if inProg a ∧ th = .F then { s := s, trap := some (0x06, nw a) }
  else
    let r := s.wr (iniTh th) a n v
    match r.2 with
    | .unmapped => { s := r.1, trap := some (0x05, nw a) }
    | .prot => { s := r.1, trap := some (0x06, nw a) }
    | .memErr => { s := r.1, trap := some (0x08, nw a) }
    | .wait => { s := r.1, hold := true }
    | .ok => { s := r.1 }

/-- The address of a load or store. -/
def State.ea (s : State) (th : Thread) (rs1 : Reg) (imm : BitVec 16) : Nat := (s.gr th rs1 + sext imm).toNat

/-- A load of `n` bytes; `put` writes the value (zero-extended) to the destination. -/
def State.load (s : State) (th : Thread) (rs1 : Reg) (imm : BitVec 16) (n : Nat) (put : Word → ThreadSt → ThreadSt) : State :=
  let a := s.ea th rs1 imm
  s.insn th (loadCost a) fun s =>
    let r := s.ldMem th a n
    match r.2 with
    | .ok v => { s := r.1.modTh th (put v) }
    | .error e => { s := r.1, trap := some e }

/-- A store of `n` bytes (notes/assumptions/20.md). -/
def State.store (s : State) (th : Thread) (rs1 : Reg) (imm : BitVec 16) (n : Nat) (v : Word) : State :=
  let a := s.ea th rs1 imm
  s.insn th (storeCost a) fun s => s.stMem th a n v

/-- Words read at ascending addresses. -/
def State.ldWords (s : State) (th : Thread) (a : Nat) : Nat → State × Except (Nat × Word) (List Word)
  | 0 => (s, .ok [])
  | n + 1 =>
    let r := s.ldMem th a 4
    match r.2 with
    | .error e => (r.1, .error e)
    | .ok v =>
      let q := r.1.ldWords th (a + 4) n
      (q.1, q.2.map fun vs => v :: vs)

/-- Words written at ascending addresses; the first that traps or waits ends the instruction. -/
def State.stWords (s : State) (th : Thread) (a : Nat) : List Word → InsOut
  | [] => { s := s }
  | v :: vs =>
    let o := s.stMem th a 4 v
    if o.hold || o.trap.isSome then o else o.s.stWords th (a + 4) vs

/-- LDP and LDPD (R74, R75): `n` value words and their complements (notes/assumptions/22.md). -/
def State.loadPair (s : State) (th : Thread) (rs1 : Reg) (imm : BitVec 16) (n : Nat) (put : List Word → ThreadSt → ThreadSt) : State :=
  let a := s.ea th rs1 imm
  s.insn th (if a < 0xF0000 then 6 * n else 4 * n) fun s =>
    if a % (4 * n) ≠ 0 then { s := s, trap := some (0x04, nw a) }
    else
      let r := s.ldWords th a (2 * n)
      match r.2 with
      | .error e => { s := r.1, trap := some e }
      | .ok ws => if pairMatches ws then { s := r.1.modTh th (put ws) } else { s := r.1, trap := some (0x11, nw a) }

/-- STP and STPD (R74, R75). A store that would trap on a later word makes no access (notes/assumptions/22.md). -/
def State.storePair (s : State) (th : Thread) (rs1 : Reg) (imm : BitVec 16) (vs : List Word) : State :=
  let a := s.ea th rs1 imm
  let n := vs.length
  s.insn th (4 * n - (if a < 0xF0000 then 0 else 1)) fun s =>
    if a % (4 * n) ≠ 0 then { s := s, trap := some (0x04, nw a) }
    else
      let o := s.stWords th a (vs ++ vs.map (~~~ ·))
      match o.trap with
      | some e => { s := s, trap := some e }
      | none => o

/-! ### Special registers (R64, R65) -/

/-- RDSR of index `i`. -/
def State.readSr (s : State) (th : Thread) (i : Nat) : Option Word :=
  let t := s.th th
  match i with
  | 0 => some (thWord th)
  | 1 => some (nw s.cycle)
  | 2 => some (s.time.tick.setWidth 32)
  | 3 => some (s.thStatus th)
  | 4 => some t.tvec
  | 5 => some t.tpc
  | 6 => some t.tcause
  | 7 => some t.tval
  | 8 => some s.stk.fentry
  | 9 => some (t.fstat.setWidth 32)
  | 10 => some (s.stk.evpend.setWidth 32)
  | _ => none

/-- WRSR of index `i`: the state, or a trap; `w` is the instruction word. -/
def State.writeSr (s : State) (th : Thread) (i : Nat) (v w : Word) : InsOut :=
  let al : Word := v &&& 0xFFFFFFFC
  match i with
  | 4 => { s := s.modTh th fun t => { t with tvec := al } }
  | 5 => { s := s.modTh th fun t => { t with tpc := al } }
  | 8 => if th = .F then { s := s, trap := some (0x02, w) } else { s := { s with stk := { s.stk with fentry := al } } }
  | 9 => { s := s.modTh th fun t => { t with fstat := v.setWidth 6 } }
  | _ => if i ≤ 10 then { s := s, trap := some (0x06, nw i) } else { s := s, trap := some (0x01, w) }

/-- A thread-B instruction: thread F traps with cause 0x02 (R81). -/
def State.onlyB (s : State) (th : Thread) (cost : Nat) (w : Word) (f : State → InsOut) : State :=
  s.insn th cost fun s => if th = .F then { s := s, trap := some (0x02, w) } else f s

/-! ### Operands of unit instructions (R78) -/

/-- An operand in range, or trap 0x22; then the unit or instance present, or trap 0x21. -/
def needs (s : State) (inRange present : Bool) (v : Word) (f : InsOut) : InsOut :=
  if !inRange then { s := s, trap := some (0x22, v) } else if !present then { s := s, trap := some (0x21, v) } else f

/-- A memory operand of `n` bytes: a 4-aligned address in data SRAM, read without an uncorrectable error. -/
def State.memArg (s : State) (th : Thread) (a : Word) (n : Nat) (f : State → List Byte → InsOut) : InsOut :=
  if a.toNat % 4 ≠ 0 then { s := s, trap := some (0x04, a) }
  else if !inData a.toNat n then { s := s, trap := some (0x05, a) }
  else
    let r := s.ldWords th a.toNat ((n + 3) / 4)
    match r.2 with
    | .error e => { s := r.1, trap := some e }
    | .ok ws => f r.1 ((ws.flatMap wBytes).take n)

/-- A result in rd. -/
def State.ret (s : State) (th : Thread) (rd : Reg) (v : Word) : InsOut := { s := s.setGr th rd v }

/-- An FBX selector: context and word (R79). -/
def selX (v : Word) : Fin 128 := idx (fld v 8 7)
def selW (v : Word) : Nat := fld v 0 5
def selFits (v : Word) : Bool := (v &&& 0xFFFF80E0) == 0
def State.fbx1 (s : State) (v : Word) (f : InsOut) : InsOut := needs s (selFits v) (decide (fld v 8 7 < s.nCtx)) v f

/-- A descriptor word written by a unit instruction (R79): hardware-written words are refused under 01 R19. -/
def State.fbWords (s : State) (th : Thread) (rd : Reg) (a : Nat) (vs : List Word) : InsOut :=
  let as := vs.zipIdx.map fun p => (a + 4 * p.2, p.1)
  match as.find? fun p => (s.info p.1).kind = .hw with
  | some p => (s.flagErr errLocked p.1).ret th rd 1
  | none =>
    let s := as.foldl (fun (s : State) p => s.wrReg (iniTh th) p.1 p.2 0xFFFFFFFF) s
    s.ret th rd 0

/-- An Ember operation of the program (R78, 17 R355): beyond what the tick admits it takes nothing; one that takes effect is an
entry of the mirror. -/
def State.embIns (s : State) (th : Thread) (rd : Reg) (op idx_ : Byte) (a w : Word) (f : State → State × BitVec 4) : InsOut :=
  if !s.embAdmit then s.ret th rd 1
  else
    let r := f s
    let s := if r.2 = 0 then r.1.embEntry op idx_ (iniNum (iniTh th)) a w else r.1
    s.ret th rd (r.2.setWidth 32)

/-- A program record (R79): the state and the word for rd. -/
def State.logIns (s : State) (th : Thread) (code sev : Nat) (payload : List Word) : State × Word :=
  let r := s.flush.offerRec { org := orgTh th, code := BitVec.ofNat 12 code, sev := BitVec.ofNat 3 sev, stamp := s.time.tick, payloads := [payload] }
  (r.1, match r.2 with
    | .admitted q => q.setWidth 32
    | .suppressed q => q.setWidth 32 ||| bw true 16
    | .dropped => bw true 17)

/-- SSEND (R79, 16 R335, R338): the message with source and CRC filled in (notes/assumptions/45.md). -/
def State.sendIns (s : State) (th : Thread) (rd : Reg) (p : Fin 4) (b : List Byte) (arg : Word) : InsOut :=
  let cls := frByte b 0
  let c : Fin 4 := if cls = 4 then 3 else 0
  if cls = 1 ∧ (frByte b 1).toNat < 0x40 then { s := s, trap := some (0x22, arg) }
  else if cls ≠ 1 ∧ cls ≠ 4 then s.ret th rd 3
  else if !(s.stkLive && s.portUp p) then s.ret th rd 2
  else if partSize c ≤ s.link.port[p].txq[c].length then s.ret th rd 1
  else (s.stkPush p c (mkMsg cls (frByte b 1) (frNum b 2 2 % 16384) s.node ((b.drop 6).take 8))).ret th rd 0

/-- SRECV: the oldest waiting message goes to memory, and its slot is free. -/
def State.recvIns (s : State) (th : Thread) (rd : Reg) (a : Word) (log : Bool) : InsOut :=
  match (if log then s.link.log else s.link.ctrl) with
  | [] => s.ret th rd 1
  | (_, m) :: ms =>
    if s.protHit a.toNat 16 then { s := s, trap := some (0x06, a) }
    else
      let s : State := { s with link := if log then { s.link with log := ms } else { s.link with ctrl := ms } }
      let o := s.stWords th a.toNat ((wordsOf (mBytes m)))
      { o with s := o.s.setGr th rd 0 }

/-- PMIR (R356) (notes/assumptions/52.md). -/
def State.pmirIns (s : State) (th : Thread) (rd : Reg) (a : Word) (b : List Byte) : InsOut :=
  if !(s.pr.role == .active && !s.pr.solo) then s.ret th rd 2
  else if fld (s.reg 0xC0000) 16 8 < s.pr.pmirUsed + b.length then s.ret th rd 1
  else if s.mirFull && th == .B then { s := s, hold := true }
  else
    let s := s.mirPush (iniTh th) 0x13 (mkRec 0x13 (leBytes 4 a.toNat ++ b))
    (s.modPr fun p => { p with pmirUsed := p.pmirUsed + b.length }).ret th rd 0

/-! ### Waits (R77, R80) -/

/-- EWAIT takes the events `got` that were pending before this cycle; one that arises in this cycle stays (R80). -/
def State.takeEv (s : State) (got : BitVec 12) : State :=
  { s with stk := { s.stk with evpend := (s.stk.evpend &&& ~~~ got) ||| s.evFresh, evWas := s.stk.evWas &&& ~~~ got } }

/-- EWAIT of thread B (notes/assumptions/24.md). -/
def State.eventWait (s : State) (th : Thread) (rd rs1 : Reg) : InsOut :=
  let v := s.gr th rs1
  if fld v 0 12 = 0 ∨ fld v 12 20 ≠ 0 then { s := s, trap := some (0x22, v) }
  else
    let m : BitVec 12 := v.setWidth 12
    let got := s.evBefore &&& m
    if got ≠ 0 then { s := (s.takeEv got).setGr th rd (got.setWidth 32) }
    else { s := { s with stk := { s.stk with b := .ewait rd m } } }

/-- TWAIT_WAKE: cycle 0 of the tick waited for (notes/assumptions/24.md). -/
def State.twaitWake (s : State) : State :=
  match s.stk.b with
  | .twait t => if t ≤ s.now ∧ s.stokerOn ∧ ¬ s.stk.bGated then { s with stk := { s.stk with b := .running } } else s
  | _ => s

/-- EWAIT_WAKE: a masked event is pending, and B may run (notes/assumptions/24.md). -/
def State.ewaitWake (s : State) : State :=
  match s.stk.b with
  | .ewait rd m =>
    let old := s.evBefore &&& m
    let got := if old ≠ 0 then old else s.stk.evpend &&& m
    if got ≠ 0 ∧ s.stokerOn ∧ ¬ s.stk.bGated ∧ ¬ s.stk.fLive then
      let s := if old ≠ 0 then s.takeEv got
        else { s with stk := { s.stk with evpend := s.stk.evpend &&& ~~~ got, evNew := s.stk.evNew &&& ~~~ got } }
      State.setGr { s with stk := { s.stk with b := .running } } .B rd (got.setWidth 32)
    else s
  | _ => s

/-- Cycle 540 (R85-R87, 17 R361): a live slice is preempted; the safe state is taken where the limit is reached; a hard stop is done. -/
def State.frameEnd (s : State) : State :=
  let s : State := { s.settle with cycle := max s.cycle 540 }
  let s := if s.stk.fLive then s.overrun else s
  let s := if s.stk.limitDue then
      let act := if s.pr.role = .active then Config.codeOf 0x034 0 3 else nw s.safeAction
      (State.dev { s with stk := { s.stk with limitDue := false } } 0x034 7 [act]).takeSafe
    else s
  s.hardStop

/-- FRAME_OVERRUN, in a tick whose strobe has been given (R85) (notes/assumptions/4.md). -/
def State.frameOverrun (s : State) : State := if s.time.strobeDue then s else s.frameEnd

/-- Thread F wakes at the strobe (R57, R84) (notes/assumptions/3.md). -/
def State.wakeF (s : State) : State :=
  if bit (s.reg 0x60) 0 && !s.stk.fHalted && s.stokerOn && s.pr.resumeAt.isNone then
    let s := s.modTh .F fun t => { t with pc := s.stk.fentry, intrap := false }
    { s with stk := { s.stk with fLive := true, povr := s.stk.fOver, fOver := false, sf := s.time.sf } }
  else s

/-- YIELD (R59, R85). -/
def State.yieldF (s : State) : State := { s with stk := { s.stk with fLive := false, ovrConsec := 0 } }

end Sys2Proof.Machine
end

