-- ==== Sys2Proof/Machine/Tstep.lean ====
section
/-! DEFINITION. TSTEP: one step of a sequencer machine (04_tables.md R101-R107). -/

namespace Sys2Proof.Machine

/-- A table's bytes: 16-bit and 32-bit fields. -/
def State.h16 (s : State) (a : Nat) : Nat := leNat (s.bytes a 2)

/-- Cost of an access by target: data SRAM, register block. -/
def cost2 (a : Nat) (ram reg : Nat) : Nat := if inSram a then ram else reg

/-- Why a step ends early: the machine faults (R106), or the instruction traps with a cause and its tval (21 R420, R97). -/
inductive StepErr where
  | bad
  | trap (cause : Nat) (val : Word)
  deriving DecidableEq, Repr

/-- A word that a term or an action reads: an uncorrectable error faults the machine (R106); an address that names no register traps
(21 R420) (notes/assumptions/51.md). -/
def State.stepRead (s : State) (th : Thread) (a : Nat) : State × Except StepErr Word :=
  let r := s.rd (iniTh th) a 4
  match r.2.2 with
  | .memErr => (r.1, .error .bad)
  | .unmapped => (r.1, .error (.trap 0x05 (nw a)))
  | _ => (r.1, .ok r.2.1)

/-- A record of the table is read, `n` bytes from `a`: the state, and whether a word of it is uncorrectable (R106, 01 R29, R30). -/
def State.recRead (s : State) (th : Thread) (a n : Nat) : State × Bool :=
  s.readAll (iniWord (iniTh th)) ((List.range ((a % 4 + n + 3) / 4)).map fun i => a - a % 4 + 4 * i)

/-- What a term comes to: the state after its reads, its value, cycles, event bits tested true. -/
structure TermOut where
  s : State
  val : Except StepErr Bool
  cost : Nat := 0
  ev : Half := 0

/-- A comparison by cmp: equal, less. -/
def cmpBy (c : Nat) (eq lt : Bool) : Bool :=
  match c with
  | 0 => eq
  | 1 => !eq
  | 2 => lt
  | 3 => lt || eq
  | 4 => !lt && !eq
  | _ => !lt

/-- The test of the term at address `t` for machine `j` (R102). -/
def State.termTest (s : State) (th : Thread) (j : Fin 64) (t : Nat) : TermOut :=
  let cmp := (s.byte (t + 1)).toNat
  let src := leNat (s.bytes (t + 2) 4)
  let k := nw (leNat (s.bytes (t + 6) 4))
  let word (f : Word → Bool) : TermOut :=
    let r := s.stepRead th src
    { s := r.1, val := r.2.map f, cost := cost2 src 3 4 }
  match (s.byte t).toNat with
  | 1 => word fun w => cmpBy cmp (w == k) (decide (w.toNat < k.toNat))
  | 2 => word fun w => cmpBy cmp (w == k) (decide (sgn w < sgn k))
  | 3 => word fun w => !fIsNaN w && !fIsNaN k && cmpBy cmp (fpEq w k) (fpLt w k)
  | 4 => word fun w => if cmp = 0 then w &&& k != 0 else w &&& k == 0
  | 5 =>
    let m := s.seq.tmr[(idx (2 * j.val + src % 2) : Fin 128)]
    { s := s, val := .ok (if cmp = 0 then m.exp else m.run), cost := 2 }
  | 6 =>
    let r1 := s.stepRead th src
    let r2 := r1.1.stepRead th (src + 4)
    let v : Except StepErr Bool := match r1.2, r2.2 with
      | .ok w, .ok c => if c = ~~~ w then .ok (cmpBy cmp (w == k) (decide (w.toNat < k.toNat))) else .error .bad
      | .error e, _ => .error e
      | _, .error e => .error e
    { s := r2.1, val := v, cost := cost2 src 6 8 }
  | 7 =>
    let e : Half := s.seq.mach[j].ev &&& BitVec.ofNat 16 src
    { s := s, val := .ok (e != 0), cost := 2, ev := e }
  | _ => { s := s, val := .ok true }

/-- The term at address `t`: its record is read, then the word it tests (R102, R106). -/
def State.term (s : State) (th : Thread) (j : Fin 64) (t : Nat) : TermOut :=
  let r := s.recRead th t 10
  if r.2 then { s := r.1, val := .error .bad } else r.1.termTest th j t

/-- A change that a step makes at its end. -/
inductive StepAct where
  | write (a : Nat) (ws : List Word)
  | tstart (i : Fin 128) (slow : Bool) (len : Nat)
  | tstop (i : Fin 128)
  | log (code sev : Nat) (w : Word)
  | evset (j : Fin 64) (v : Half)

/-- The outcome of the search: an early end at a record, out of its budget, nothing taken, or taken. -/
inductive StepOut where
  | fault (s : State) (rec_ : Nat) (e : StepErr) (cost : Nat)
  | late (s : State)
  | none (s : State) (cost : Nat)
  | taken (s : State) (tr : Nat) (ev : Half) (cost : Nat)

/-- Transitions of a state in table order (R104). `base` is the address of the first transition record. A term that the budget does
not cover is not read (R107; notes/assumptions/51.md). -/
def State.search (th : Thread) (j : Fin 64) (base budget : Nat) : Nat → Nat → Nat → State → StepOut
  | 0, _, cost, s => .none s cost
  | n + 1, i, cost, s =>
    let t := base + 24 * i
    let a := s.term th j t
    let cost := cost + 1 + a.cost
    if budget < cost then .late s
    else match a.val with
      | .error e => .fault a.s i e cost
      | .ok false => State.search th j base budget n (i + 1) cost a.s
      | .ok true =>
        let b := a.s.term th j (t + 10)
        let cost := cost + b.cost
        if budget < cost then .late a.s
        else match b.val with
          | .error e => .fault b.s i e cost
          | .ok false => State.search th j base budget n (i + 1) cost b.s
          | .ok true => .taken b.s i (a.ev ||| b.ev) cost

/-- What the action at address `a` of machine `j` does: its change and its cycles (R103) (notes/assumptions/51.md). -/
def State.actionDo (s : State) (th : Thread) (j : Fin 64) (a : Nat) : State × Except StepErr (List StepAct) × Nat :=
  let arg8 := (s.byte (a + 1)).toNat
  let arg16 := s.h16 (a + 2)
  let adr := leNat (s.bytes (a + 4) 4)
  let v := nw (leNat (s.bytes (a + 8) 4))
  let tm : Fin 128 := idx (2 * j.val + arg8 % 2)
  let rmw (f : Word → Word) : State × Except StepErr (List StepAct) × Nat :=
    let r := s.stepRead th adr
    (r.1, r.2.map fun w => [.write adr [f w]], cost2 adr 3 5)
  match (s.byte a).toNat with
  | 1 => (s, .ok [.write adr [v]], cost2 adr 2 3)
  | 2 => (s, .ok [.write adr [v, ~~~ v]], cost2 adr 3 4)
  | 3 => rmw fun w => w ||| v
  | 4 => rmw fun w => w &&& ~~~ v
  | 5 => (s, .ok [.tstart tm (arg16 % 2 == 1) (fld v 0 24)], 2)
  | 6 => (s, .ok [.tstop tm], 2)
  | 7 => (s, .ok [.log (arg16 % 4096) (arg8 % 8) v], 5)
  | 8 => (s, .ok [.evset (idx arg8) (v.setWidth 16)], 2)
  | _ => (s, .ok [], 2)

/-- The action at address `a`: its record is read, then its change (R103, R106). -/
def State.action (s : State) (th : Thread) (j : Fin 64) (a : Nat) : State × Except StepErr (List StepAct) × Nat :=
  let r := s.recRead th a 12
  if r.2 then (r.1, .error .bad, 0) else r.1.actionDo th j a

/-- What a run of actions comes to: the state after their reads, and the changes with the cycles spent, the record that ended the
step early, or nothing where the budget does not cover them. -/
structure ActsOut where
  s : State
  res : Except (Nat × StepErr) (List StepAct × Nat)
  late : Bool := false

/-- A run of actions from `cost` cycles on; one that the budget does not cover is not read (R107; notes/assumptions/51.md). -/
def State.actions (th : Thread) (j : Fin 64) (base budget : Nat) : Nat → Nat → Nat → State → ActsOut
  | 0, _, cost, s => { s := s, res := .ok ([], cost), late := decide (budget < cost) }
  | n + 1, i, cost, s =>
    let r := s.action th j (base + 12 * i)
    if budget < cost + r.2.2 then { s := s, res := .ok ([], cost), late := true }
    else match r.2.1 with
      | .error e => { s := r.1, res := .error (i, e) }
      | .ok l =>
        let q := State.actions th j base budget n (i + 1) (cost + r.2.2) r.1
        { q with res := q.res.map fun m => (l ++ m.1, m.2) }

/-- One change takes effect; the first write that traps or must wait for room in the mirror ends the step (notes/assumptions/51.md). -/
def State.applyAct (th : Thread) (o : InsOut) (a : StepAct) : InsOut :=
  if o.hold || o.trap.isSome then o
  else match a with
    | .write adr ws => o.s.stWords th adr ws
    | .tstart i slow len => { s := o.s.tmrStart i slow len }
    | .tstop i => { s := o.s.tmrStop i }
    | .log c v w => { s := (o.s.logIns th c v [w]).1 }
    | .evset j v => { s := (o.s.mevSet j v).mirSeq (iniTh th) j }

/-- Thread B's step waits where its mirror records would pass the queue's 64 places, unless the queue is empty (17 R356)
(notes/assumptions/52.md). -/
def State.roomFor (s : State) (th : Thread) (o : InsOut) : InsOut :=
  { o with hold := o.hold || (th == .B && !s.pr.queue.isEmpty && decide (64 < o.s.pr.queue.length)) }

/-- A step worked out: cycles, and what the instruction then does. An uncorrectable word of the header or of a state record faults the
machine as one of a term does (notes/assumptions/51.md). -/
def State.stepPlan (s : State) (th : Thread) (j : Fin 64) (rd : Reg) (budget : Nat) : Nat × (State → InsOut) :=
  let m := s.seq.mach[j]
  let st := m.state.toNat
  let ans (s : State) (state : Nat) (bit8 bit9 bit10 : Bool) : InsOut := s.ret th rd (nw state ||| bw bit8 8 ||| bw bit9 9 ||| bw bit10 10)
  let ends (t : State) (r : Nat) : StepErr → InsOut
    | .bad => t.roomFor th (ans (((t.modMach j fun k => { k with fault := true }).dev 0x042 5 [nw j.val, nw st, nw r]).mirSeq (iniTh th) j) st false false true)
    | .trap c v => { s := t, trap := some (c, v) }
  match s.table 1 j.val with
  | .none => (6, fun s => ans s st false false true)
  | some t =>
    if m.fault then (6, fun s => ans s st false false true)
    else
      let nS := (s.byte (t.addr + 16)).toNat
      let nT := s.h16 (t.addr + 18)
      let trBase := t.addr + 24 + 8 * nS
      let acBase := trBase + 24 * nT
      let rec_ := t.addr + 24 + 8 * st
      let late (u : State) : Nat × (State → InsOut) := (budget, fun _ => ans u st false true false)
      let head := s.readAll (iniWord (iniTh th)) [t.addr + 16, t.addr + 20, rec_, rec_ + 4]
      if head.2 then (6, fun _ => ends head.1 0 .bad)
      else
      match State.search th j trBase budget (s.byte (rec_ + 2)).toNat (s.h16 rec_) 6 head.1 with
      | .fault u r e c => (c, fun _ => ends u r e)
      | .late u => late u
      | .none u c => (c, fun _ => ans u st false false false)
      | .taken u i ev c =>
        let tr := trBase + 24 * i
        let target := (s.byte (tr + 20)).toNat
        let ent := t.addr + 24 + 8 * target
        let aim := u.readAll (iniWord (iniTh th)) [tr + 20, ent, ent + 4]
        if budget < c + 1 then late u
        else if aim.2 then (c + 1, fun _ => ends aim.1 i .bad)
        else
          let a1 := State.actions th j acBase budget (s.byte (tr + 21)).toNat (s.h16 (tr + 22)) (c + 1) aim.1
          match a1.late, a1.res with
          | true, _ => late a1.s
          | false, .error (r, e) => (c + 1, fun _ => ends a1.s r e)
          | false, .ok (l1, c1) =>
            let a2 := State.actions th j acBase budget (s.byte (ent + 6)).toNat (s.h16 (ent + 4)) c1 a1.s
            match a2.late, a2.res with
            | true, _ => late a2.s
            | false, .error (r, e) => (c1, fun _ => ends a2.s r e)
            | false, .ok (l2, c2) =>
              (c2, fun _ =>
                let v := a2.s.modMach j fun k => { k with ev := k.ev &&& ~~~ ev, state := BitVec.ofNat 5 target }
                let o := (l1 ++ l2).foldl (State.applyAct th) { s := v }
                if o.trap.isSome then { s := a2.s, trap := o.trap }
                else s.roomFor th { ans (o.s.mirSeq (iniTh th) j) target true false false with hold := o.hold })

/-- TSTEP (R78, R79, R104): the budget is imm16, at least 8 and at most 255. -/
def State.tstepIns (s : State) (th : Thread) (rd rs1 : Reg) (imm : BitVec 16) : State :=
  let v := s.gr th rs1
  if 64 ≤ v.toNat then s.insn th 1 fun s => { s := s, trap := some (0x22, v) }
  else
    let plan (s : State) := s.stepPlan th (idx v.toNat) rd (max 8 (min 255 imm.toNat))
    s.insn th (plan s).1 fun s => (plan s).2 s

end Sys2Proof.Machine
end

