-- ==== Sys2Proof/Machine/ExecFp.lean ====
section
/-! DEFINITION. Meanings of the FP32 instructions (03_lerzia.md R76). -/

namespace Sys2Proof.Machine

/-- FADD (R76). FP32 add. -/
def execFadd (th : Thread) (fd : FReg) (fs1 : FReg) (fs2 : FReg) (s : State) : Host.Outcome State Fault Refusal :=
  finish (s.fop th 2 fd fun t => fpAdd (t.freg fs1) (t.freg fs2))

/-- FSUB (R76). FP32 subtract. -/
def execFsub (th : Thread) (fd : FReg) (fs1 : FReg) (fs2 : FReg) (s : State) : Host.Outcome State Fault Refusal :=
  finish (s.fop th 2 fd fun t => fpSub (t.freg fs1) (t.freg fs2))

/-- FMUL (R76). FP32 multiply. -/
def execFmul (th : Thread) (fd : FReg) (fs1 : FReg) (fs2 : FReg) (s : State) : Host.Outcome State Fault Refusal :=
  finish (s.fop th 2 fd fun t => fpMul (t.freg fs1) (t.freg fs2))

/-- FDIV (R76). FP32 divide with the zero and infinity rules. -/
def execFdiv (th : Thread) (fd : FReg) (fs1 : FReg) (fs2 : FReg) (s : State) : Host.Outcome State Fault Refusal :=
  finish (s.fop th 12 fd fun t => fpDiv (t.freg fs1) (t.freg fs2))

/-- FMAC (R76). FP32 multiply-accumulate rounded once. -/
def execFmac (th : Thread) (fd : FReg) (fs1 : FReg) (fs2 : FReg) (s : State) : Host.Outcome State Fault Refusal :=
  finish (s.fop th 3 fd fun t => fpMac (t.freg fd) (t.freg fs1) (t.freg fs2))

/-- FSQRT (R76). FP32 square root. -/
def execFsqrt (th : Thread) (fd : FReg) (fs1 : FReg) (s : State) : Host.Outcome State Fault Refusal :=
  finish (s.fop th 14 fd fun t => fpSqrt (t.freg fs1))

/-- An FP operation that may compare two zeros: which of +0 and -0 is less is a free value (notes/assumptions/9.md). -/
def State.fopZ (s : State) (th : Thread) (fd : FReg) (f : Bool → Bool → ThreadSt → Word × BitVec 6) : State :=
  s.insn th 1 fun s =>
    let z1 := Config.zeroChoice s.freeCtr
    let z2 := Config.zeroChoice (s.freeCtr + 1)
    { s := (s.drawn.drawn).modTh th fun t => (t.setFreg fd (f z1 z2 t).1).flag (f z1 z2 t).2 }

/-- FMIN (R76). FP32 minimum, NaN yielding the other operand. -/
def execFmin (th : Thread) (fd : FReg) (fs1 : FReg) (fs2 : FReg) (s : State) : Host.Outcome State Fault Refusal :=
  finish (s.fopZ th fd fun z _ t => (fpMin z (t.freg fs1) (t.freg fs2), 0))

/-- FMAX (R76). FP32 maximum, NaN yielding the other operand. -/
def execFmax (th : Thread) (fd : FReg) (fs1 : FReg) (fs2 : FReg) (s : State) : Host.Outcome State Fault Refusal :=
  finish (s.fopZ th fd fun z _ t => (fpMax z (t.freg fs1) (t.freg fs2), 0))

/-- FCLIP (R76). Clamp an FP register between two bounds. -/
def execFclip (th : Thread) (fd : FReg) (fs1 : FReg) (fs2 : FReg) (s : State) : Host.Outcome State Fault Refusal :=
  finish (s.fopZ th fd fun z1 z2 t => fpClip z1 z2 (t.freg fd) (t.freg fs1) (t.freg fs2))

/-- FABS (R76). FP absolute value by sign bit. -/
def execFabs (th : Thread) (fd : FReg) (fs1 : FReg) (s : State) : Host.Outcome State Fault Refusal :=
  finish (s.fop th 1 fd fun t => (fAbsW (t.freg fs1), 0))

/-- FNEG (R76). FP negate by sign bit. -/
def execFneg (th : Thread) (fd : FReg) (fs1 : FReg) (s : State) : Host.Outcome State Fault Refusal :=
  finish (s.fop th 1 fd fun t => (fNegW (t.freg fs1), 0))

/-- FMOV (R76). FP register move. -/
def execFmov (th : Thread) (fd : FReg) (fs1 : FReg) (s : State) : Host.Outcome State Fault Refusal :=
  finish (s.fop th 1 fd fun t => (t.freg fs1, 0))

/-- FCVTWS (R76). Convert FP32 to a saturated signed integer. -/
def execFcvtws (th : Thread) (rd : Reg) (fs1 : FReg) (s : State) : Host.Outcome State Fault Refusal :=
  finish (s.fopG th 2 rd fun t => fpToInt (t.freg fs1))

/-- FCVTSW (R76). Convert a signed integer to FP32. -/
def execFcvtsw (th : Thread) (fd : FReg) (rs1 : Reg) (s : State) : Host.Outcome State Fault Refusal :=
  finish (s.fop th 2 fd fun t => fOfInt (sgn (t.reg rs1)))

/-- FMVXW (R76). Copy FP register bits to a general register. -/
def execFmvxw (th : Thread) (rd : Reg) (fs1 : FReg) (s : State) : Host.Outcome State Fault Refusal :=
  finish (s.fopG th 1 rd fun t => (t.freg fs1, 0))

/-- FMVWX (R76). Copy general register bits to an FP register. -/
def execFmvwx (th : Thread) (fd : FReg) (rs1 : Reg) (s : State) : Host.Outcome State Fault Refusal :=
  finish (s.fop th 1 fd fun t => (t.reg rs1, 0))

/-- FEQ (R76). FP equality compare. -/
def execFeq (th : Thread) (rd : Reg) (fs1 : FReg) (fs2 : FReg) (s : State) : Host.Outcome State Fault Refusal :=
  finish (s.fopG th 1 rd fun t => (bWord (fpEq (t.freg fs1) (t.freg fs2)), 0))

/-- FLT (R76). FP less-than compare. -/
def execFlt (th : Thread) (rd : Reg) (fs1 : FReg) (fs2 : FReg) (s : State) : Host.Outcome State Fault Refusal :=
  finish (s.fopG th 1 rd fun t => (bWord (fpLt (t.freg fs1) (t.freg fs2)), nanNv (t.freg fs1) (t.freg fs2)))

/-- FLE (R76). FP less-or-equal compare. -/
def execFle (th : Thread) (rd : Reg) (fs1 : FReg) (fs2 : FReg) (s : State) : Host.Outcome State Fault Refusal :=
  finish (s.fopG th 1 rd fun t => (bWord (fpLe (t.freg fs1) (t.freg fs2)), nanNv (t.freg fs1) (t.freg fs2)))

end Sys2Proof.Machine
end

