-- ==== Sys2Proof/Machine/ExecInt.lean ====
section
/-! DEFINITION. Meanings of the integer instructions (03_lerzia.md R73). -/

namespace Sys2Proof.Machine

/-- ADD (R73). Integer add of two registers. -/
def execAdd (th : Thread) (rd : Reg) (rs1 : Reg) (rs2 : Reg) (s : State) : Host.Outcome State Fault Refusal :=
  finish (s.op3 th 1 rd rs1 rs2 fun a b => a + b)

/-- SUB (R73). Integer subtract of two registers. -/
def execSub (th : Thread) (rd : Reg) (rs1 : Reg) (rs2 : Reg) (s : State) : Host.Outcome State Fault Refusal :=
  finish (s.op3 th 1 rd rs1 rs2 fun a b => a - b)

/-- AND (R73). Bitwise AND of two registers. -/
def execAnd (th : Thread) (rd : Reg) (rs1 : Reg) (rs2 : Reg) (s : State) : Host.Outcome State Fault Refusal :=
  finish (s.op3 th 1 rd rs1 rs2 fun a b => a &&& b)

/-- OR (R73). Bitwise OR of two registers. -/
def execOr (th : Thread) (rd : Reg) (rs1 : Reg) (rs2 : Reg) (s : State) : Host.Outcome State Fault Refusal :=
  finish (s.op3 th 1 rd rs1 rs2 fun a b => a ||| b)

/-- XOR (R73). Bitwise XOR of two registers. -/
def execXor (th : Thread) (rd : Reg) (rs1 : Reg) (rs2 : Reg) (s : State) : Host.Outcome State Fault Refusal :=
  finish (s.op3 th 1 rd rs1 rs2 fun a b => a ^^^ b)

/-- SLL (R73). Shift left logical by rs2[4:0]. -/
def execSll (th : Thread) (rd : Reg) (rs1 : Reg) (rs2 : Reg) (s : State) : Host.Outcome State Fault Refusal :=
  finish (s.op3 th 1 rd rs1 rs2 fun a b => a <<< fld b 0 5)

/-- SRL (R73). Shift right logical by rs2[4:0]. -/
def execSrl (th : Thread) (rd : Reg) (rs1 : Reg) (rs2 : Reg) (s : State) : Host.Outcome State Fault Refusal :=
  finish (s.op3 th 1 rd rs1 rs2 fun a b => a >>> fld b 0 5)

/-- SRA (R73). Shift right arithmetic by rs2[4:0]. -/
def execSra (th : Thread) (rd : Reg) (rs1 : Reg) (rs2 : Reg) (s : State) : Host.Outcome State Fault Refusal :=
  finish (s.op3 th 1 rd rs1 rs2 fun a b => a.sshiftRight (fld b 0 5))

/-- SLT (R73). Set if less than, signed. -/
def execSlt (th : Thread) (rd : Reg) (rs1 : Reg) (rs2 : Reg) (s : State) : Host.Outcome State Fault Refusal :=
  finish (s.op3 th 1 rd rs1 rs2 fun a b => bWord (a.slt b))

/-- SLTU (R73). Set if less than, unsigned. -/
def execSltu (th : Thread) (rd : Reg) (rs1 : Reg) (rs2 : Reg) (s : State) : Host.Outcome State Fault Refusal :=
  finish (s.op3 th 1 rd rs1 rs2 fun a b => bWord (a.ult b))

/-- MIN (R73). Signed minimum. -/
def execMin (th : Thread) (rd : Reg) (rs1 : Reg) (rs2 : Reg) (s : State) : Host.Outcome State Fault Refusal :=
  finish (s.op3 th 1 rd rs1 rs2 fun a b => if a.slt b then a else b)

/-- MAX (R73). Signed maximum. -/
def execMax (th : Thread) (rd : Reg) (rs1 : Reg) (rs2 : Reg) (s : State) : Host.Outcome State Fault Refusal :=
  finish (s.op3 th 1 rd rs1 rs2 fun a b => if a.slt b then b else a)

/-- MINU (R73). Unsigned minimum. -/
def execMinu (th : Thread) (rd : Reg) (rs1 : Reg) (rs2 : Reg) (s : State) : Host.Outcome State Fault Refusal :=
  finish (s.op3 th 1 rd rs1 rs2 fun a b => if a.ult b then a else b)

/-- MAXU (R73). Unsigned maximum. -/
def execMaxu (th : Thread) (rd : Reg) (rs1 : Reg) (rs2 : Reg) (s : State) : Host.Outcome State Fault Refusal :=
  finish (s.op3 th 1 rd rs1 rs2 fun a b => if a.ult b then b else a)

/-- MUL (R73). Low 32 bits of the product. -/
def execMul (th : Thread) (rd : Reg) (rs1 : Reg) (rs2 : Reg) (s : State) : Host.Outcome State Fault Refusal :=
  finish (s.op3 th 2 rd rs1 rs2 fun a b => a * b)

/-- MULH (R73). High 32 bits of the signed product. -/
def execMulh (th : Thread) (rd : Reg) (rs1 : Reg) (rs2 : Reg) (s : State) : Host.Outcome State Fault Refusal :=
  finish (s.op3 th 2 rd rs1 rs2 fun a b => iw (sgn a * sgn b / 2 ^ 32))

/-- MULHU (R73). High 32 bits of the unsigned product. -/
def execMulhu (th : Thread) (rd : Reg) (rs1 : Reg) (rs2 : Reg) (s : State) : Host.Outcome State Fault Refusal :=
  finish (s.op3 th 2 rd rs1 rs2 fun a b => nw (a.toNat * b.toNat / 2 ^ 32))

/-- DIV (R73). Signed division with zero and overflow rules setting idz. -/
def execDiv (th : Thread) (rd : Reg) (rs1 : Reg) (rs2 : Reg) (s : State) : Host.Outcome State Fault Refusal :=
  finish (s.opDiv th rd rs1 rs2 divS)

/-- DIVU (R73). Unsigned division with the zero-divisor rule. -/
def execDivu (th : Thread) (rd : Reg) (rs1 : Reg) (rs2 : Reg) (s : State) : Host.Outcome State Fault Refusal :=
  finish (s.opDiv th rd rs1 rs2 divU)

/-- REM (R73). Signed remainder with the zero and overflow rules. -/
def execRem (th : Thread) (rd : Reg) (rs1 : Reg) (rs2 : Reg) (s : State) : Host.Outcome State Fault Refusal :=
  finish (s.opDiv th rd rs1 rs2 remS)

/-- REMU (R73). Unsigned remainder with the zero-divisor rule. -/
def execRemu (th : Thread) (rd : Reg) (rs1 : Reg) (rs2 : Reg) (s : State) : Host.Outcome State Fault Refusal :=
  finish (s.opDiv th rd rs1 rs2 remU)

/-- ADDI (R73). Add a sign-extended immediate. -/
def execAddi (th : Thread) (rd : Reg) (rs1 : Reg) (imm : BitVec 16) (s : State) : Host.Outcome State Fault Refusal :=
  finish (s.opI th rd rs1 fun a => a + sext imm)

/-- ANDI (R73). AND with a zero-extended immediate. -/
def execAndi (th : Thread) (rd : Reg) (rs1 : Reg) (imm : BitVec 16) (s : State) : Host.Outcome State Fault Refusal :=
  finish (s.opI th rd rs1 fun a => a &&& zext imm)

/-- ORI (R73). OR with a zero-extended immediate. -/
def execOri (th : Thread) (rd : Reg) (rs1 : Reg) (imm : BitVec 16) (s : State) : Host.Outcome State Fault Refusal :=
  finish (s.opI th rd rs1 fun a => a ||| zext imm)

/-- XORI (R73). XOR with a zero-extended immediate. -/
def execXori (th : Thread) (rd : Reg) (rs1 : Reg) (imm : BitVec 16) (s : State) : Host.Outcome State Fault Refusal :=
  finish (s.opI th rd rs1 fun a => a ^^^ zext imm)

/-- SLTI (R73). Set if less than a sign-extended immediate, signed. -/
def execSlti (th : Thread) (rd : Reg) (rs1 : Reg) (imm : BitVec 16) (s : State) : Host.Outcome State Fault Refusal :=
  finish (s.opI th rd rs1 fun a => bWord (a.slt (sext imm)))

/-- SLTIU (R73). Set if less than a sign-extended immediate, unsigned. -/
def execSltiu (th : Thread) (rd : Reg) (rs1 : Reg) (imm : BitVec 16) (s : State) : Host.Outcome State Fault Refusal :=
  finish (s.opI th rd rs1 fun a => bWord (a.ult (sext imm)))

/-- SLLI (R73). SHI with imm[6:5] = 0: shift left logical by an immediate. -/
def execSlli (th : Thread) (rd : Reg) (rs1 : Reg) (sh : BitVec 5) (s : State) : Host.Outcome State Fault Refusal :=
  finish (s.opI th rd rs1 fun a => a <<< sh.toNat)

/-- SRLI (R73). SHI with imm[6:5] = 1: shift right logical by an immediate. -/
def execSrli (th : Thread) (rd : Reg) (rs1 : Reg) (sh : BitVec 5) (s : State) : Host.Outcome State Fault Refusal :=
  finish (s.opI th rd rs1 fun a => a >>> sh.toNat)

/-- SRAI (R73). SHI with imm[6:5] = 2: shift right arithmetic by an immediate. -/
def execSrai (th : Thread) (rd : Reg) (rs1 : Reg) (sh : BitVec 5) (s : State) : Host.Outcome State Fault Refusal :=
  finish (s.opI th rd rs1 fun a => a.sshiftRight sh.toNat)

/-- LUI (R73). Load an immediate into the upper 16 bits. -/
def execLui (th : Thread) (rd : Reg) (imm : BitVec 16) (s : State) : Host.Outcome State Fault Refusal :=
  finish (s.alu th 1 fun t => t.setReg rd (zext imm <<< 16))

end Sys2Proof.Machine
end

