-- ==== Sys2Proof/Machine/ExecMem.lean ====
section
/-! DEFINITION. Meanings of the loads, stores, pair accesses, branches and jumps (03_lerzia.md R67-R75). -/

namespace Sys2Proof.Machine

/-- LW (R67). Load a word from the addressed target at its cost and restrictions. -/
def execLw (th : Thread) (rd : Reg) (rs1 : Reg) (imm : BitVec 16) (s : State) : Host.Outcome State Fault Refusal :=
  finish (s.load th rs1 imm 4 fun v t => t.setReg rd v)

/-- LH (R67). Load a sign-extended halfword. -/
def execLh (th : Thread) (rd : Reg) (rs1 : Reg) (imm : BitVec 16) (s : State) : Host.Outcome State Fault Refusal :=
  finish (s.load th rs1 imm 2 fun v t => t.setReg rd (sext (v.setWidth 16 : Half)))

/-- LHU (R67). Load a zero-extended halfword. -/
def execLhu (th : Thread) (rd : Reg) (rs1 : Reg) (imm : BitVec 16) (s : State) : Host.Outcome State Fault Refusal :=
  finish (s.load th rs1 imm 2 fun v t => t.setReg rd (zext (v.setWidth 16 : Half)))

/-- LB (R67). Load a sign-extended byte. -/
def execLb (th : Thread) (rd : Reg) (rs1 : Reg) (imm : BitVec 16) (s : State) : Host.Outcome State Fault Refusal :=
  finish (s.load th rs1 imm 1 fun v t => t.setReg rd (sext (v.setWidth 8 : Byte)))

/-- LBU (R67). Load a zero-extended byte. -/
def execLbu (th : Thread) (rd : Reg) (rs1 : Reg) (imm : BitVec 16) (s : State) : Host.Outcome State Fault Refusal :=
  finish (s.load th rs1 imm 1 fun v t => t.setReg rd (zext (v.setWidth 8 : Byte)))

/-- SW (R67). Store a word to the addressed target. -/
def execSw (th : Thread) (rs2 : Reg) (rs1 : Reg) (imm : BitVec 16) (s : State) : Host.Outcome State Fault Refusal :=
  finish (s.store th rs1 imm 4 (s.gr th rs2))

/-- SH (R67). Store a halfword. -/
def execSh (th : Thread) (rs2 : Reg) (rs1 : Reg) (imm : BitVec 16) (s : State) : Host.Outcome State Fault Refusal :=
  finish (s.store th rs1 imm 2 (zext ((s.gr th rs2).setWidth 16 : Half)))

/-- SB (R67). Store a byte. -/
def execSb (th : Thread) (rs2 : Reg) (rs1 : Reg) (imm : BitVec 16) (s : State) : Host.Outcome State Fault Refusal :=
  finish (s.store th rs1 imm 1 (zext ((s.gr th rs2).setWidth 8 : Byte)))

/-- FLW (R73). Load a word into an FP register. -/
def execFlw (th : Thread) (fd : FReg) (rs1 : Reg) (imm : BitVec 16) (s : State) : Host.Outcome State Fault Refusal :=
  finish (s.load th rs1 imm 4 fun v t => t.setFreg fd v)

/-- FSW (R73). Store an FP register as a word. -/
def execFsw (th : Thread) (fs2 : FReg) (rs1 : Reg) (imm : BitVec 16) (s : State) : Host.Outcome State Fault Refusal :=
  finish (s.store th rs1 imm 4 (s.fr th fs2))

/-- LDPD and STPD name an even register: the value takes it and the next one (R74) (notes/assumptions/22.md). -/
def evenReg (r : Reg) : Bool := !r.getLsbD 0

/-- LDP (R74). Load a complement pair, trapping on mismatch. -/
def execLdp (th : Thread) (rd : Reg) (rs1 : Reg) (imm : BitVec 16) (s : State) : Host.Outcome State Fault Refusal :=
  finish (s.loadPair th rs1 imm 1 fun ws t => t.setReg rd (ws.getD 0 0))

/-- STP (R74). Store a value and its complement on alternate cycles. -/
def execStp (th : Thread) (rs2 : Reg) (rs1 : Reg) (imm : BitVec 16) (s : State) : Host.Outcome State Fault Refusal :=
  finish (s.storePair th rs1 imm [s.gr th rs2])

/-- LDPD (R74). Load a 64-bit complement pair, trapping on mismatch. -/
def execLdpd (th : Thread) (rd : Reg) (rs1 : Reg) (imm : BitVec 16) (s : State) : Host.Outcome State Fault Refusal :=
  finish (if evenReg rd then s.loadPair th rs1 imm 2 fun ws t => (t.setReg rd (ws.getD 0 0)).setReg (rd + 1) (ws.getD 1 0)
    else s.trapIns th 0x01 (wordOf (.ldpd th rd rs1 imm)))

/-- STPD (R74). Store a 64-bit value and its complement. -/
def execStpd (th : Thread) (rs2 : Reg) (rs1 : Reg) (imm : BitVec 16) (s : State) : Host.Outcome State Fault Refusal :=
  finish (if evenReg rs2 then s.storePair th rs1 imm [s.gr th rs2, s.gr th (rs2 + 1)]
    else s.trapIns th 0x01 (wordOf (.stpd th rs2 rs1 imm)))

/-- BEQ (R72). Branch if equal. -/
def execBeq (th : Thread) (rs1 : Reg) (rs2 : Reg) (off : BitVec 16) (s : State) : Host.Outcome State Fault Refusal :=
  finish (s.branch th rs1 rs2 off fun a b => a == b)

/-- BNE (R72). Branch if not equal. -/
def execBne (th : Thread) (rs1 : Reg) (rs2 : Reg) (off : BitVec 16) (s : State) : Host.Outcome State Fault Refusal :=
  finish (s.branch th rs1 rs2 off fun a b => a != b)

/-- BLT (R72). Branch if less than, signed. -/
def execBlt (th : Thread) (rs1 : Reg) (rs2 : Reg) (off : BitVec 16) (s : State) : Host.Outcome State Fault Refusal :=
  finish (s.branch th rs1 rs2 off fun a b => a.slt b)

/-- BGE (R72). Branch if greater or equal, signed. -/
def execBge (th : Thread) (rs1 : Reg) (rs2 : Reg) (off : BitVec 16) (s : State) : Host.Outcome State Fault Refusal :=
  finish (s.branch th rs1 rs2 off fun a b => !a.slt b)

/-- BLTU (R72). Branch if less than, unsigned. -/
def execBltu (th : Thread) (rs1 : Reg) (rs2 : Reg) (off : BitVec 16) (s : State) : Host.Outcome State Fault Refusal :=
  finish (s.branch th rs1 rs2 off fun a b => a.ult b)

/-- BGEU (R72). Branch if greater or equal, unsigned. -/
def execBgeu (th : Thread) (rs1 : Reg) (rs2 : Reg) (off : BitVec 16) (s : State) : Host.Outcome State Fault Refusal :=
  finish (s.branch th rs1 rs2 off fun a b => !a.ult b)

/-- JAL (R72). Jump relative and write the return address. -/
def execJal (th : Thread) (rd : Reg) (off : BitVec 21) (s : State) : Host.Outcome State Fault Refusal :=
  finish (s.jump th rd fun s => (s.th th).pc + 4 * sext off)

/-- JALR (R73). Jump to a register plus offset and write the return address. -/
def execJalr (th : Thread) (rd : Reg) (rs1 : Reg) (imm : BitVec 16) (s : State) : Host.Outcome State Fault Refusal :=
  finish (s.jump th rd fun s => s.gr th rs1 + sext imm)

end Sys2Proof.Machine
end

