-- ==== Sys2Proof/Machine/ExecSys.lean ====
section
/-! DEFINITION. Meanings of the SYS instructions and of an illegal word (03_lerzia.md R71, R77, R80). -/

namespace Sys2Proof.Machine

/-- YIELD (R59). Thread F ends its frame slice. -/
def execYield (th : Thread) (s : State) : Host.Outcome State Fault Refusal :=
  finish (s.insn th 1 fun s => if th = .B then { s := s, trap := some (0x02, wordOf (.yield th)) } else { s := s.yieldF })

/-- TWAIT (R77). Thread B starts waiting for the n-th tick after issue. -/
def execTwait (th : Thread) (rs1 : Reg) (s : State) : Host.Outcome State Fault Refusal :=
  finish (s.onlyB th 1 (wordOf (.twait th rs1)) fun s =>
    { s := { s with stk := { s.stk with b := .twait (s.now + max 1 (fld (s.gr th rs1) 0 16)) } } })

/-- TWAIT_WAKE (R77). A TWAIT's wait ends at cycle 0 of its tick and thread B resumes. -/
def execTwaitWake (s : State) : Host.Outcome State Fault Refusal :=
  finish (s.twaitWake)

/-- EWAIT (R80). Thread B collects pending masked events or starts waiting for them. -/
def execEwait (th : Thread) (rd : Reg) (rs1 : Reg) (s : State) : Host.Outcome State Fault Refusal :=
  finish (s.onlyB th 1 (wordOf (.ewait th rd rs1)) fun s => s.eventWait th rd rs1)

/-- EWAIT_WAKE (R80). A masked event bit is set and a waiting EWAIT resumes, collecting the bits. -/
def execEwaitWake (s : State) : Host.Outcome State Fault Refusal :=
  finish (s.ewaitWake)

/-- RDSR (R64). Read a special register. -/
def execRdsr (th : Thread) (rd : Reg) (sr : BitVec 5) (s : State) : Host.Outcome State Fault Refusal :=
  finish (s.insn th 1 fun s =>
    match s.readSr th sr.toNat with
    | some v => s.ret th rd v
    | none => { s := s, trap := some (0x01, wordOf (.rdsr th rd sr)) })

/-- WRSR (R65). Write a special register. -/
def execWrsr (th : Thread) (sr : BitVec 5) (rs1 : Reg) (s : State) : Host.Outcome State Fault Refusal :=
  finish (s.insn th 1 fun s => s.writeSr th sr.toNat (s.gr th rs1) (wordOf (.wrsr th sr rs1)))

/-- TRAP (R77). Raise a soft trap with cause 0x09. -/
def execTrap (th : Thread) (rs1 : Reg) (s : State) : Host.Outcome State Fault Refusal :=
  finish (s.trapIns th 0x09 (s.gr th rs1))

/-- RETT (R77). Return from a trap to tpc. -/
def execRett (th : Thread) (s : State) : Host.Outcome State Fault Refusal :=
  finish (s.insn th 2 fun s =>
    let a := (s.th th).tpc
    if goodPc a then { s := s.modTh th fun t => { t with intrap := false }, pc := some a } else { s := s, trap := some (0x03, a) })

/-- WDKICK (R91). Reload the watchdog counter. -/
def execWdkick (th : Thread) (s : State) : Host.Outcome State Fault Refusal :=
  finish (s.onlyB th 1 (wordOf (.wdkick th)) fun s => { s := s.wdogKick })

/-- A word that traps with cause 0x01 (R65, R70, R71, R74). -/
def illegalWord (th : Thread) (w : Word) : Bool :=
  match decode th w with
  | none => true
  | some (.ldpd _ rd _ _) => !evenReg rd
  | some (.stpd _ rs2 _ _) => !evenReg rs2
  | some (.rdsr _ _ sr) => decide (11 ≤ sr.toNat)
  | some (.wrsr _ sr _) => decide (11 ≤ sr.toNat)
  | some _ => false

/-- ILLEGAL_ENCODING (R71). The Stoker executes a word with an unassigned opcode or fn, an illegal field or a reserved-nonzero field and traps with cause 0x01 (notes/assumptions/22.md). -/
def execIllegalEncoding (th : Thread) (w : Word) (s : State) : Host.Outcome State Fault Refusal :=
  finish (if illegalWord th w then s.trapIns th 0x01 w else s)

end Sys2Proof.Machine
end

