-- ==== Sys2Proof/Machine/ExecUnit.lean ====
section
/-! DEFINITION. Meanings of the unit instructions (03_lerzia.md R78, R79). -/

namespace Sys2Proof.Machine

/-- TSTEP (R104). Step a sequencer machine within a cycle budget. -/
def execTstep (th : Thread) (rd : Reg) (rs1 : Reg) (imm : BitVec 16) (s : State) : Host.Outcome State Fault Refusal :=
  finish (s.tstepIns th rd rs1 imm)

/-- TCURV (R111). Evaluate an installed curve at an abscissa. -/
def execTcurv (th : Thread) (fd : FReg) (fs1 : FReg) (rs2 : Reg) (s : State) : Host.Outcome State Fault Refusal :=
  finish (s.insn th 18 fun s =>
    let id := s.gr th rs2
    let put (s : State) (v : Word × BitVec 6) : InsOut := { s := s.modTh th fun t => (t.setFreg fd v.1).flag v.2 }
    if 255 < id.toNat then { s := s, trap := some (0x22, id) }
    else match s.table 2 id.toNat with
      | some t =>
        let r := s.curveRead (iniWord (iniTh th)) t (s.fr th fs1)
        let bad := (s.curveAddrs t (s.fr th fs1)).find? fun a => sget s.ecc (a - a % 4) == some .uncorr
        if r.2.2 then { s := r.1, trap := some (0x08, nw (bad.getD 0)) } else put r.1 r.2.1
      | none => put s (0x7FC00000, fpNv))

/-- FBR (R78). Read an active descriptor word. -/
def execFbr (th : Thread) (rd : Reg) (rs2 : Reg) (s : State) : Host.Outcome State Fault Refusal :=
  finish (s.insn th 3 fun s =>
    let v := s.gr th rs2
    s.fbx1 v (
      let r := s.rdWord (iniTh th) (descAddr (selX v).val (selW v))
      match r.2.2 with
      | .memErr => { s := r.1, trap := some (0x08, nw (descAddr (selX v).val (selW v))) }
      | _ => r.1.ret th rd r.2.1))

/-- FBW (R79). Write a shadow descriptor word. -/
def execFbw (th : Thread) (rd : Reg) (rs1 : Reg) (rs2 : Reg) (s : State) : Host.Outcome State Fault Refusal :=
  finish (s.insn th 3 fun s =>
    let v := s.gr th rs2
    s.fbx1 v (s.fbWords th rd (descAddr (selX v).val (selW v)) [s.gr th rs1]))

/-- FBWP (R79). Write a shadow descriptor complement pair. -/
def execFbwp (th : Thread) (rd : Reg) (rs1 : Reg) (rs2 : Reg) (s : State) : Host.Outcome State Fault Refusal :=
  finish (s.insn th 4 fun s =>
    let v := s.gr th rs2
    let d := s.gr th rs1
    if selFits v && decide (30 < selW v) then { s := s, trap := some (0x22, v) }
    else s.fbx1 v (s.fbWords th rd (descAddr (selX v).val (selW v)) [d, ~~~ d]))

/-- FBST (R78). Read a context's status word. -/
def execFbst (th : Thread) (rd : Reg) (rs2 : Reg) (s : State) : Host.Outcome State Fault Refusal :=
  finish (s.insn th 3 fun s =>
    let v := s.gr th rs2
    s.fbx1 v (s.ret th rd s.fbx.ctx[selX v].shown))

/-- FBCLR (R137). Request re-arm of a faulted context at the commit. -/
def execFbclr (th : Thread) (rd : Reg) (rs2 : Reg) (s : State) : Host.Outcome State Fault Refusal :=
  finish (s.insn th 3 fun s =>
    let v := s.gr th rs2
    s.fbx1 v ((s.clearCtx (iniTh th) (selX v)).ret th rd 0))

/-- An Ember instruction of 4 cycles whose second operand has `n` meaningful bits (R78). -/
def State.embOp4 (s : State) (th : Thread) (rs2 : Reg) (n : Nat) (f : State → Word → InsOut) : State :=
  s.insn th 4 fun s =>
    let v := s.gr th rs2
    needs s (decide (v.toNat < 2 ^ n)) true v (f s v)

/-- EMINT (R215). Mint Embers into the pool, paying debt first. -/
def execEmint (th : Thread) (rd : Reg) (rs1 : Reg) (rs2 : Reg) (s : State) : Host.Outcome State Fault Refusal :=
  finish (s.embOp4 th rs2 8 fun s v =>
    let w := s.gr th rs1
    s.embIns th rd 1 0 (zext (v.setWidth 8 : Byte)) w fun s => s.embMint w (v.setWidth 8))

/-- EBURN (R215). Burn Embers from free. -/
def execEburn (th : Thread) (rd : Reg) (rs1 : Reg) (rs2 : Reg) (s : State) : Host.Outcome State Fault Refusal :=
  finish (s.embOp4 th rs2 8 fun s v =>
    let w := s.gr th rs1
    s.embIns th rd 2 0 (zext (v.setWidth 8 : Byte)) w fun s => s.embBurn w (v.setWidth 8))

/-- EGRANT (R215). Grant Embers from free to a holder. -/
def execEgrant (th : Thread) (rd : Reg) (rs1 : Reg) (rs2 : Reg) (s : State) : Host.Outcome State Fault Refusal :=
  finish (s.embOp4 th rs2 8 fun s v =>
    let w := s.gr th rs1
    s.embIns th rd 3 (v.setWidth 8) 0 w fun s => s.embGrant (idx v.toNat) w)

/-- EREVK (R221). Begin a revocation of Embers from a holder. -/
def execErevk (th : Thread) (rd : Reg) (rs1 : Reg) (rs2 : Reg) (s : State) : Host.Outcome State Fault Refusal :=
  finish (s.embOp4 th rs2 8 fun s v =>
    let w := s.gr th rs1
    s.embIns th rd 4 (v.setWidth 8) 0 w fun s => s.embRevoke (idx v.toNat) w)

/-- EXFER (R226). Open an outgoing two-phase transfer offer to a neighbour. -/
def execExfer (th : Thread) (rd : Reg) (rs1 : Reg) (rs2 : Reg) (s : State) : Host.Outcome State Fault Refusal :=
  finish (s.embOp4 th rs2 14 fun s v =>
    let w := s.gr th rs1
    let p : Byte := match s.route (v.setWidth 14) with | some p => BitVec.ofNat 8 p.val | none => 0
    s.embIns th rd 5 p v w fun s => s.embXfer w (v.setWidth 14))

/-- EQRY (R78). Return pool_free. -/
def execEqry (th : Thread) (rd : Reg) (s : State) : Host.Outcome State Fault Refusal :=
  finish (s.insn th 2 fun s => s.ret th rd s.emb.free.v)

/-- A thermal instruction that names sensor rs1 (R78): 40 sensors. -/
def State.thmIns (s : State) (th : Thread) (rs1 : Reg) (f : State → Fin 40 → InsOut) : State :=
  s.insn th 2 fun s =>
    let v := s.gr th rs1
    needs s (decide (v.toNat < 40)) true v (f s (idx v.toNat))

/-- TMEAS (R235). Queue a temperature measurement of a sensor. -/
def execTmeas (th : Thread) (rd : Reg) (rs1 : Reg) (s : State) : Host.Outcome State Fault Refusal :=
  finish (s.thmIns th rs1 fun s t =>
    let r := s.thmQueue t
    r.1.ret th rd (r.2.setWidth 32))

/-- TRES (R78). Return a sensor's last result and done flag. -/
def execTres (th : Thread) (rd : Reg) (rs1 : Reg) (s : State) : Host.Outcome State Fault Refusal :=
  finish (s.thmIns th rs1 fun s t => s.ret th rd (s.thmResWord t))

/-- LOGE (R79). Post a program record to the recorder. DESIGN CHOICE: the index or header operand is tested before the memory operand; the spec states no order (notes/assumptions/22.md). -/
def execLoge (th : Thread) (rd : Reg) (rs1 : Reg) (rs2 : Reg) (s : State) : Host.Outcome State Fault Refusal :=
  finish (s.insn th (4 + fld (s.gr th rs1) 16 8) fun s =>
    let h := s.gr th rs1
    if bit h 15 || fld h 24 8 != 0 || decide (fld h 0 12 < 0xB00) then { s := s, trap := some (0x22, h) }
    else s.memArg th (s.gr th rs2) (4 * fld h 16 8) fun s bs =>
      let r := s.logIns th (fld h 0 12) (fld h 12 3) (wordsOf bs)
      r.1.ret th rd r.2)

/-- NVWR (R287). Offer a 64-byte page write to the gated MRAM queue. -/
def execNvwr (th : Thread) (rd : Reg) (rs1 : Reg) (rs2 : Reg) (s : State) : Host.Outcome State Fault Refusal :=
  finish (s.insn th 18 fun s =>
    let o := (s.gr th rs1).toNat
    s.memArg th (s.gr th rs2) 64 fun s bs =>
      if o % 64 ≠ 0 ∨ 0x200000 ≤ o then s.ret th rd 4
      else
        let r := s.nvOffer (iniTh th) (match th with | .F => .thF | .B => .thB) (o / 64) bs
        r.1.ret th rd (r.2.setWidth 32))

/-- NVQ (R78). Return the number of pages queued or in progress. -/
def execNvq (th : Thread) (rd : Reg) (s : State) : Host.Outcome State Fault Refusal :=
  finish (s.insn th 2 fun s => s.ret th rd (nw s.nvPages))

/-- SSEND (R79). Queue a 16-byte Stack message on a port. DESIGN CHOICE: the index or header operand is tested before the memory operand; the spec states no order (notes/assumptions/22.md). -/
def execSsend (th : Thread) (rd : Reg) (rs1 : Reg) (rs2 : Reg) (s : State) : Host.Outcome State Fault Refusal :=
  finish (s.insn th 6 fun s =>
    let p := s.gr th rs2
    let a := s.gr th rs1
    needs s (decide (p.toNat < 4)) (decide (p.toNat < s.nPorts)) p
      (s.memArg th a 16 fun s bs => s.sendIns th rd (idx p.toNat) bs a))

/-- SRECV (R78). Copy the oldest waiting message of a class. DESIGN CHOICE: the index or header operand is tested before the memory operand; the spec states no order (notes/assumptions/22.md). -/
def execSrecv (th : Thread) (rd : Reg) (rs1 : Reg) (rs2 : Reg) (s : State) : Host.Outcome State Fault Refusal :=
  finish (s.insn th 6 fun s =>
    let c := s.gr th rs2
    let a := s.gr th rs1
    needs s (decide (c.toNat < 2)) true c
      (if a.toNat % 4 ≠ 0 then { s := s, trap := some (0x04, a) }
       else if !inData a.toNat 16 then { s := s, trap := some (0x05, a) }
       else s.recvIns th rd a (c == 1)))

/-- PMIR (R356). Add program state to this tick's mirror frame. DESIGN CHOICE: the index or header operand is tested before the memory operand; the spec states no order (notes/assumptions/22.md). -/
def execPmir (th : Thread) (rd : Reg) (rs1 : Reg) (rs2 : Reg) (s : State) : Host.Outcome State Fault Refusal :=
  finish (s.insn th (4 + (min 64 (s.gr th rs2).toNat + 3) / 4) fun s =>
    let n := s.gr th rs2
    let a := s.gr th rs1
    needs s (decide (1 ≤ n.toNat) && decide (n.toNat ≤ 64)) true n (s.memArg th a n.toNat fun s bs => s.pmirIns th rd a bs))

end Sys2Proof.Machine
end

