-- ==== Sys2Proof/Machine/Tick.lean ====
section
/-! DEFINITION. The fixed events of a tick: cycle 0, conversions, the strobe, the commit, slow-frame boundaries, and the SRAM scrubber
(01 R20-R31, 02 R38-R43, 18 R381). -/

namespace Sys2Proof.Machine

/-- PFAIL_N: a black-box commit is armed until a tick has shown the pin asserted, and again from a tick that shows it deasserted
(12 R275); an OTP command notices the pin (14 R312) (notes/assumptions/40.md). -/
def State.pfailTick (s : State) (now before : Bool) : State :=
  let s : State := { s with log := { s.log with bb := { s.log.bb with armed := if now then s.log.bb.armed && !before else true } } }
  if now && s.otp.cmd.isSome then
    let s := if s.otp.cmdStop = 0 then s.otpStop else s
    { s with otp := { s.otp with cmdPfail := s.otp.cmdPfail || s.otp.cmdStop == s.otpAttempt } }
  else s

/-- Cycle 0: TICK (0 in the first tick after PLL lock, 19 R392), the pins, the ash counters, and the cycle-0 part of every unit in
the order of 18 R381. Events with a row of their own (handovers, expiries, messages) follow as commands (notes/assumptions/4.md, 14.md, 18.md). -/
def State.cycle0 (s : State) (p : PinSample) : State :=
  let s := s.crcTell.flush
  let t := if s.time.fresh then s.time.tick else s.time.tick + 1
  let before := s.pins.pfail
  let s : State := { s with
    now := s.now + 1, cycle := 0, stk := { s.stk with fLive := false },
    time := { s.time with tick := t, fresh := false, wrapDue := t == 0 && !s.time.fresh, sfDue := t.toNat % 1024 == 0, sf := false, strobeDue := true, commitDue := true }
    sns := { s.sns with seen := 0 }
    pins := { acfail := p.acfail, damperIn := p.damperIn, witGrant := p.witGrant, pfail := p.pfail, chgdet := p.chgdet, holdup := p.holdup } }
  let s := s.pfailTick p.pfail before
  let s := (s.ashTick p.ash).chgTick p.chgdet
  let s := s.nvmTick.fbxTick.ramps
  let s := s.ageImports.latchReceived.dftTick
  let s := s.embStart.embRun
  let s := s.stkTick.pwrTick.statusTick.pairTick
  (s.evp 0).resetIfDue

/-- TICK_START: ticks exist once the PLL has locked (19 R392). -/
def State.tickStart (s : State) (p : PinSample) : State := if s.clk.pllLock then s.cycle0 p else s

/-- CONVERSION_DONE (02 R41, 21 R422): raw × gain + offset, rounded once, in the cycle in which the slot ends; channels of absent
instances read 0 (notes/assumptions/4.md, 17.md). -/
def State.convert (s : State) (c : Fin 96) (code : BitVec 14) : State :=
  if !(s.clk.pllLock && s.awake && s.chanOk c.val) then s
  else
    let v := fMac (s.reg (0x30004 + 16 * c.val)) (fInt (sgn code)) (s.reg (0x30000 + 16 * c.val))
    let s : State := { s with cycle := max s.cycle (delivery c.val),
                              sns := { s.sns with raw := s.sns.raw.set c code, sample := s.sns.sample.set c v, seen := s.sns.seen ||| (1 : BitVec 96) <<< c.val } }
    if 64 ≤ c.val ∧ c.val < 80 then s.batSample (idx (c.val - 64)) v else s

/-- The rails take their steps, in ascending order (07 R176), and STOP actions are spent; a new active's rails wait for the strobe from
which its phases start (17 R362), those of a standby are mirrored, and in the halt of 19 R398 every rail stays off (notes/assumptions/18.md). -/
def State.railSteps (s : State) : State :=
  let s := if s.inStandby || s.boot.halt || (match s.pr.handAt with | some h => decide (s.now ≤ h) | none => false) then s
    else (fins 16).foldl State.railStep s
  { s with phs := { s.phs with rail := s.phs.rail.map fun r => { r with stopAct := false } } }

/-- The strobe's part for the Firebox, references and exports: a Firebox that is halted by SLEEP or SHIP holds its outputs (notes/assumptions/18.md). -/
def State.strobeOut (s : State) : State :=
  let s := s.fbxStrobe
  let s : State := { s with sns := { s.sns with val := s.sns.sample } }
  if s.pr.resumeAt.isSome then s.holdRefs.queueExports s.released
  else
    let s := s.loadRefs
    if s.inStandby then s else s.queueExports s.released

/-- OUTPUT_STROBE at cycle 240 (02 R39, R43; 18 R381) (notes/assumptions/4.md, 17.md, 18.md). -/
def State.strobe (s : State) : State :=
  if !(s.time.strobeDue && decide (s.cycle ≤ 240)) then s
  else
    let s : State := { s with cycle := 240, time := { s.time with strobeDue := false } }
    let s := (s.batResults.strobeOut.startMembers.railSteps).batStrobe.loadEff
    State.wakeF { s with fbx := { s.fbx with ctx := s.fbx.ctx.map fun c => { c with shown := c.word } } }

/-- The parameters of the tick take effect: all of them, or, in an active, as parameter sets with the mirror frame (01 R20, 17 R357) (notes/assumptions/56.md). -/
def State.commitParams (s : State) : State :=
  if s.pr.role = .active then s.shutSet.batMirror.mirrorCommit else State.commitSet { s with shadow := [] } s.lastWrites

/-- The soft stop of the safe state, then the phase-loss burns and the Ember check of cycle 599 (18 R381). A pool that freezes
at this check (`frozen`: it was before) makes an active release its damper line (17 R361) (notes/assumptions/56.md). -/
def State.commitEnd (s : State) (frozen : Bool) : State :=
  let s := if s.stk.softDue then State.softStopAll { s with stk := { s.stk with softDue := false } } else s
  let s := if s.pr.role = .active then s else s.commitBurns.embCommit
  let s := if s.pr.role = .active ∧ frozen = false ∧ s.emb.frozen = true then (s.pairRelease 1).modPr fun p => { p with frame := [] } else s
  s.hardStop

/-- SHADOW_COMMIT (01 R20-R23, 18 R381); what cycle 540 brings has been done by then, its row given or not (02 R44, 03 R87) (notes/assumptions/4.md, 17.md). -/
def State.commit (s : State) : State :=
  if !s.time.commitDue then s
  else
    let s := s.frameEnd
    let s : State := { s with cycle := 599, time := { s.time with commitDue := false } }
    ((s.formAhead.keepCarriers.dropF.chooseSets.takeConst).commitParams.seqCommit).commitEnd s.emb.frozen

/-- SLOW_FRAME_BOUNDARY (01 R28): at cycle 0 of the first tick of a slow frame (notes/assumptions/4.md, 17.md). -/
def State.slowBoundary (s : State) : State :=
  if !(s.time.sfDue && s.cycle == 0) then s
  else
    let s : State := { s with time := { s.time with sf := true, sfDue := false } }
    let s := s.batBoundary.batMirrorSlow
    let s := s.tmrSlow.wdogSlow.pwrSlow
    let s := s.delaySlow.lossPost.retSlow
    s.evp 1

/-- SRAM_SCRUB (01 R31): a corrected word is written back (notes/assumptions/19.md, 59.md). -/
def State.sramScrub (s : State) (a : Nat) : State :=
  if !inMram a && sget s.ecc (a - a % 4) == some .corr then { s with ecc := sput s.ecc (a - a % 4) none } else s

/-- An access to an absent unit or instance reads 0 and writes nothing (00 R2, R3). -/
def State.absentAccess (s : State) (a : Nat) : State :=
  if s.absent a then State.flagErr { s with sys := { s.sys with rdata := 0 } } errAbsent a else s

/-- A host access to an address that names nothing reads 0 and writes nothing (21 R420); a Stoker access traps (R67). -/
def State.unmappedAccess (s : State) (ini : Initiator) (a : Nat) : State :=
  if isHost ini && !s.absent a && s.unmapped a then State.flagErr { s with sys := { s.sys with rdata := 0 } } errUnmapped a else s

/-- A read of SYS_TICK_LO (02 R45). -/
def State.tickLoRead (s : State) (ini : Initiator) : State :=
  let r := s.rd ini 0x20 4
  { r.1 with sys := { r.1.sys with rdata := r.2.1 } }

end Sys2Proof.Machine
end

