-- ==== Sys2Proof/Machine/ExecBat.lean ====
section
/-! DEFINITION. Meanings of the thermal and battery commands and events (10_thermal.md, 11_battery.md). -/

namespace Sys2Proof.Machine

/-- THM_MEAS_START (R235). The idle converter starts the oldest queued measurement at cycle 0. -/
def execThmMeasStart (s : State) : Host.Outcome State Fault Refusal :=
  finish (s.measStart)

/-- THM_MEAS_DONE (R235). A measurement completes, its result is stored and evaluated for each zone. -/
def execThmMeasDone (mean : Int) (brk : Bool) (s : State) : Host.Outcome State Fault Refusal :=
  finish (s.measDone mean brk)

/-- THM_GRACE_EXPIRE (R239). A zone's grace timer expires and the zone enters level 2. -/
def execThmGraceExpire (z : Fin 8) (s : State) : Host.Outcome State Fault Refusal :=
  finish (s.graceExpire z)

/-- THM_SUBST (R244). A go write to THM_SUBST replaces a member sensor of a zone. -/
def execThmSubst (ini : Initiator) (z : Fin 8) (tNew : BitVec 6) (tOld : BitVec 6) (s : State) : Host.Outcome State Fault Refusal :=
  finish (s.regWrite ini 0x40010 (bw true 31 ||| nw (z.val * 2 ^ 16) ||| at_ tNew 8 ||| zext tOld))

/-- THM_ZONE_DISABLE (R237). Clearing THM_ZCFG.en ends the zone's throttling. -/
def execThmZoneDisable (ini : Initiator) (z : Fin 8) (s : State) : Host.Outcome State Fault Refusal :=
  finish (s.regWrite ini (zA z 0) (s.reg (zA z 0) &&& 0x7FFFFFFF))

/-- THM_ZMEM_WRITE (R243). A membership write removes or adds sensors and their failure in the zone. -/
def execThmZmemWrite (ini : Initiator) (z : Fin 8) (hi : Bool) (v : Word) (s : State) : Host.Outcome State Fault Refusal :=
  finish (s.regWrite ini (zA z (if hi then 8 else 4)) v)

/-- The four words of a BAT_QSET pair, low word first, then the complement (00 R10, 11 R248). -/
def State.qsetWords (s : State) (ini : Initiator) (b : Fin 16) (v : BitVec 64) : State :=
  ((w64 v ++ w64 (~~~ v)).zipIdx).foldl (fun (s : State) (p : Word × Nat) => s.regWrite ini (strA b (0x20 + 4 * p.2)) p.1) s

/-- BAT_QSET (R248). The fourth word of a BAT_QSET pair write completes. -/
def execBatQset (ini : Initiator) (b : Fin 16) (v : BitVec 64) (s : State) : Host.Outcome State Fault Refusal :=
  finish (s.qsetWords ini b v)

/-- BAT_QSET_APPLY (R248). At the next cycle 0 the accumulator takes the set value and q_bad clears. -/
def execBatQsetApply (b : Fin 16) (s : State) : Host.Outcome State Fault Refusal :=
  finish (s.qsetApply b)

/-- BAT_FULL_ANCHOR (R251). The f_qual-th qualifying full frame anchors the zero point. -/
def execBatFullAnchor (b : Fin 16) (s : State) : Host.Outcome State Fault Refusal :=
  finish (s.fullAnchor b)

/-- BAT_CUTOFF (R253). The v_qual-th consecutive tick below the empty voltage cuts the string off. -/
def execBatCutoff (b : Fin 16) (s : State) : Host.Outcome State Fault Refusal :=
  finish (s.cutOff b)

/-- BAT_REST (R255). t_rest consecutive rest frames take a rest point and run learning. -/
def execBatRest (b : Fin 16) (s : State) : Host.Outcome State Fault Refusal :=
  finish (s.restPoint b)

/-- BAT_LCMD_RESET (R260). A write of BAT_LCMD.reset clears learning state. -/
def execBatLcmdReset (ini : Initiator) (b : Fin 16) (s : State) : Host.Outcome State Fault Refusal :=
  finish (s.regWrite ini (strA b 0xA8) (bw true 31))

/-- BAT_LCMD_WB_ACK (R258). A write of BAT_LCMD.wb_ack clears wb_pend. -/
def execBatLcmdWbAck (ini : Initiator) (b : Fin 16) (s : State) : Host.Outcome State Fault Refusal :=
  finish (s.regWrite ini (strA b 0xA8) (bw true 30))

/-- BAT_SHIP_ENTER (R261). A write of BAT_SHIP.enter with the key requests ship mode. -/
def execBatShipEnter (ini : Initiator) (key : Byte) (s : State) : Host.Outcome State Fault Refusal :=
  finish (s.regWrite ini 0x50008 (bw true 31 ||| at_ key 16 ||| (s.reg 0x50008 &&& 0xFF00)))

/-- SHIP_MODE_SET (R261). At cycle 0 of the next tick ship is set and SHIP_N asserted. -/
def execShipModeSet (s : State) : Host.Outcome State Fault Refusal :=
  finish (s.shipSet)

/-- BAT_SHIP_RELEASE (R261). A write of BAT_SHIP.release requests leaving ship mode. -/
def execBatShipRelease (ini : Initiator) (s : State) : Host.Outcome State Fault Refusal :=
  finish (s.regWrite ini 0x50008 (bw true 30 ||| (s.reg 0x50008 &&& 0xFF00)))

/-- SHIP_MODE_CLEAR (R261). In the next tick ship clears and SHIP_N deasserts. -/
def execShipModeClear (s : State) : Host.Outcome State Fault Refusal :=
  finish (s.shipModeClear)

/-- CHGDET_WAKE (R261). CHGDET is sampled asserted for the qualification count and ship clears. -/
def execChgdetWake (s : State) : Host.Outcome State Fault Refusal :=
  finish (s.chgWake)

end Sys2Proof.Machine
end

