-- ==== Sys2Proof/Machine/ExecBoot.lean ====
section
/-! DEFINITION. Meanings of resets, boot steps and power states (19_startup.md). -/

namespace Sys2Proof.Machine

/-- POWER_ON_RESET (R387). A supply below threshold holds a power-on reset. -/
def execPowerOnReset (s : State) : Host.Outcome State Fault Refusal :=
  finish (s.powerOn)

/-- RESET_N_ASSERT (R389). RESET_N asserted holds a system reset. -/
def execResetNAssert (s : State) : Host.Outcome State Fault Refusal :=
  finish (s.sysReset 1)

/-- SYS_RST_CMD (R389). A keyed go write to SYS_RST_CMD causes a software system reset. -/
def execSysRstCmd (ini : Initiator) (key : Byte) (s : State) : Host.Outcome State Fault Refusal :=
  finish (s.regWrite ini 0x84 (bw true 31 ||| at_ key 16))

/-- SHIP_WAKE (R404). In the tick after ship clears, a system reset with cause SHIP_WAKE runs. -/
def execShipWake (s : State) : Host.Outcome State Fault Refusal :=
  finish (s.shipWake)

/-- RESET_N_RELEASE (R316). RESET_N is released; the controller samples ADDR[2:0] to set the TWI0 address and the reset ends, so PLL locking begins. -/
def execResetNRelease (straps : BitVec 3) (s : State) : Host.Outcome State Fault Refusal :=
  finish (s.resetRelease straps)

/-- PLL_LOCK (R392). The PLL locks after reset and TICK starts counting. -/
def execPllLock (s : State) : Host.Outcome State Fault Refusal :=
  finish (s.pllLock)

/-- FUSE_SENSE_DONE (R301). Fuse sensing completes, latching words, region states and the feature mask. -/
def execFuseSenseDone (readings : List FuseReading) (s : State) : Host.Outcome State Fault Refusal :=
  finish (s.fuseSense readings)

/-- IMAGE_LOAD_DONE (R394). A slot's image load and checks complete, selecting it or trying the other. -/
def execImageLoadDone (s : State) : Host.Outcome State Fault Refusal :=
  finish (s.imageLoad)

/-- BB_VALIDATION_DONE (R277). Both black-box slots are validated and a fresh box is reported. -/
def execBbValidationDone (s : State) : Host.Outcome State Fault Refusal :=
  finish (s.bbValidated2)

/-- PAIR_ROLE_WINDOW_EXPIRE (R399). The boot pairing window expires and the controller becomes active or standby. -/
def execPairRoleWindowExpire (s : State) : Host.Outcome State Fault Refusal :=
  finish (s.roleWindow)

/-- BOOT (R400). Thread B starts at entry_b and boot completes. -/
def execBoot (s : State) : Host.Outcome State Fault Refusal :=
  finish (s.bootDone)

/-- RUN (R402). SYS_PWR_CMD requests the RUN state. -/
def execRun (ini : Initiator) (s : State) : Host.Outcome State Fault Refusal :=
  finish (s.regWrite ini 0x94 (bw true 31))

/-- IDLE (R402). SYS_PWR_CMD requests the IDLE state. -/
def execIdle (ini : Initiator) (s : State) : Host.Outcome State Fault Refusal :=
  finish (s.regWrite ini 0x94 (bw true 31 ||| 1))

/-- SLEEP (R402). SYS_PWR_CMD requests the SLEEP state. -/
def execSleep (ini : Initiator) (s : State) : Host.Outcome State Fault Refusal :=
  finish (s.regWrite ini 0x94 (bw true 31 ||| 2))

/-- SHIP (R402). SYS_PWR_CMD requests the SHIP state. -/
def execShip (ini : Initiator) (s : State) : Host.Outcome State Fault Refusal :=
  finish (s.regWrite ini 0x94 (bw true 31 ||| 3))

/-- POWER_STATE (R402). At cycle 0 of the next tick a requested state is applied or refused. -/
def execPowerState (s : State) : Host.Outcome State Fault Refusal :=
  finish (s.pwrApply)

/-- ANALOG_SETTLED (R402). 20 ticks of analog settling end and the state becomes RUN. -/
def execAnalogSettled (s : State) : Host.Outcome State Fault Refusal :=
  finish (s.settled)

/-- SLEEP_WAKE (R403). An enabled wake source ends SLEEP and the state becomes IDLE. -/
def execSleepWake (src : Fin 8) (s : State) : Host.Outcome State Fault Refusal :=
  finish (s.sleepWake src)

end Sys2Proof.Machine
end

