-- ==== Sys2Proof/Machine/ExecDft.lean ====
section
/-! DEFINITION. Meanings of the Draft frames, events and commands (08_bus_draft.md). -/

namespace Sys2Proof.Machine

/-- ANNOUNCE (R197). A Draft ANNOUNCE frame is received and validated. -/
def execAnnounce (d : Fin 32) (src : Byte) (shape : BitVec 4) (mag : BitVec 16) (lead : BitVec 12) (sq : BitVec 4) (s : State) : Host.Outcome State Fault Refusal :=
  finish (s.announce d src shape mag lead sq)

/-- DRAFT_CANCEL (R203). A Draft CANCEL frame withdraws an announcement. -/
def execDraftCancel (d : Fin 32) (src : Byte) (lead : BitVec 12) (sq : BitVec 4) (s : State) : Host.Outcome State Fault Refusal :=
  finish (s.draftCancel d src lead sq)

/-- MARKER (R202). A Draft MARKER frame marks the arrival of an announced step. -/
def execMarker (d : Fin 32) (src : Byte) (lead : BitVec 12) (sq : BitVec 4) (s : State) : Host.Outcome State Fault Refusal :=
  finish (s.marker d src lead sq)

/-- HEARTBEAT (R198). A Draft HEARTBEAT frame restarts the source's liveness window. -/
def execHeartbeat (d : Fin 32) (src : Byte) (sq : BitVec 4) (s : State) : Host.Outcome State Fault Refusal :=
  finish (s.heartbeat d src sq)

/-- DRAFT_ACCEPT (R199). An accepted announcement is processed a tick later into the pending table. -/
def execDraftAccept (s : State) : Host.Outcome State Fault Refusal :=
  finish (s.draftAccept)

/-- MARKER_WINDOW_OPEN (R204). An entry's marker window opens and the measured-step base is captured. -/
def execMarkerWindowOpen (i : Fin 64) (s : State) : Host.Outcome State Fault Refusal :=
  finish (s.windowOpen i)

/-- DRAFT_NOSHOW (R203). A marker window expires without arrival and the recovery ramp-out begins. -/
def execDraftNoshow (i : Fin 64) (s : State) : Host.Outcome State Fault Refusal :=
  finish (s.noShow i)

/-- DRAFT_ENTRY_FREE (R201). An entry's ramp-out ends and the entry is freed. -/
def execDraftEntryFree (i : Fin 64) (s : State) : Host.Outcome State Fault Refusal :=
  finish (s.entryFree i)

/-- DRAFT_SRC_DOWN (R198). A liveness window expires and the source's entries are withdrawn. -/
def execDraftSrcDown (d : Fin 32) (src : Byte) (s : State) : Host.Outcome State Fault Refusal :=
  finish (s.srcDown d src)

/-- DRAFT_FWD_TRAJ (R207). A CTRL message of Type 0x20 carrying a member's P and S is received. -/
def execDraftFwdTraj (p : Fin 4) (pw : Word) (sw : Word) (s : State) : Host.Outcome State Fault Refusal :=
  finish (s.fwdTrajRx p pw sw)

/-- DRAFT_FWD_VPP (R207). A CTRL message of Type 0x21 carrying the lead's V_pp is received. -/
def execDraftFwdVpp (p : Fin 4) (v : Word) (tk : Word) (s : State) : Host.Outcome State Fault Refusal :=
  finish (s.fwdVppRx p v tk)

/-- DRAFT_FWD_STALE (R208). A forwarded value is not refreshed for 4 ticks and ramps to 0. -/
def execDraftFwdStale (p : Fin 4) (s : State) : Host.Outcome State Fault Refusal :=
  finish (s.fwdStale p)

/-- ACFAIL_ASSERT (R194). An ACFAIL_N input is sampled asserted and its feed-forward applies. -/
def execAcfailAssert (i : Fin 2) (s : State) : Host.Outcome State Fault Refusal :=
  finish (s.acfAssert i)

/-- ACFAIL_CLEAR (R194). An ACFAIL_N input is sampled deasserted and its release ramp begins. -/
def execAcfailClear (i : Fin 2) (s : State) : Host.Outcome State Fault Refusal :=
  finish (s.acfClear i)

/-- ACFAIL_RAMP_END (R194). A release ramp runs its L ticks and the contribution falls to 0. -/
def execAcfailRampEnd (i : Fin 2) (s : State) : Host.Outcome State Fault Refusal :=
  finish (s.acfRampEnd i)

/-- DFT_CLR (R197). A write of DFT_CLR.cnt clears every DFT_RXST counter. -/
def execDftClr (ini : Initiator) (s : State) : Host.Outcome State Fault Refusal :=
  finish (s.regWrite ini 0xD00A8 1)

/-- DRAFT_FRAME_INVALID (R197). A Draft receiver takes a frame that fails Manchester, sync or CRC, or has a reserved type, discards it and counts it in bad. -/
def execDraftFrameInvalid (d : Fin 32) (codeOk : Bool) (w : BitVec 64) (s : State) : Host.Outcome State Fault Refusal :=
  finish (s.frameInvalid d codeOk w)

end Sys2Proof.Machine
end

