-- ==== Sys2Proof/Machine/ExecEmb.lean ====
section
/-! DEFINITION. Meanings of the Ember commands, messages and events (09_embers.md). -/

namespace Sys2Proof.Machine

/-- REQUEST (R219). EMB_HCMD REQUEST records a holder's request for the program. -/
def execRequest (ini : Initiator) (h : Fin 256) (s : State) : Host.Outcome State Fault Refusal :=
  finish (s.regWrite ini 0x60054 (nw (1 * 2 ^ 28 + h.val)))

/-- RETURN (R215). EMB_HCMD RETURN gives Embers back from a holder to free. -/
def execEmbReturn (ini : Initiator) (h : Fin 256) (s : State) : Host.Outcome State Fault Refusal :=
  finish (s.regWrite ini 0x60054 (nw (2 * 2 ^ 28 + h.val)))

/-- RENEW (R220). EMB_HCMD RENEW opens a new lease window. -/
def execRenew (ini : Initiator) (h : Fin 256) (s : State) : Host.Outcome State Fault Refusal :=
  finish (s.regWrite ini 0x60054 (nw (3 * 2 ^ 28 + h.val)))

/-- REVOKE_ACK (R221). EMB_HCMD REVOKE_ACK completes a holder's pending revocation. -/
def execRevokeAck (ini : Initiator) (h : Fin 256) (s : State) : Host.Outcome State Fault Refusal :=
  finish (s.regWrite ini 0x60054 (nw (4 * 2 ^ 28 + h.val)))

/-- EMB_WRITEOFF (R231). EMB_XCMD writes off an open outgoing transfer. -/
def execEmbWriteoff (ini : Initiator) (i : Fin 32) (s : State) : Host.Outcome State Fault Refusal :=
  finish (s.regWrite ini 0x6005C (bw true 31 ||| nw i.val))

/-- EMB_LEASE_EXP (R220). A lease window expires and grant above floor is revoked. -/
def execEmbLeaseExp (h : Fin 256) (s : State) : Host.Outcome State Fault Refusal :=
  finish (s.leaseExp h).embRun

/-- REVOKE_DEADLINE (R221). A revocation deadline expires and the holder enters ENFORCE. -/
def execRevokeDeadline (h : Fin 256) (s : State) : Host.Outcome State Fault Refusal :=
  finish (s.revokeDeadline h).embRun

/-- EMB_ENFORCE (R222). The first attempt to write an allowance to the hot-swap controller starts. -/
def execEmbEnforce (h : Fin 256) (s : State) : Host.Outcome State Fault Refusal :=
  finish (s.enforceStart h)

/-- ENFORCE_WRITE_END (R222). An enforcement write ends, completing the pend or counting a failed attempt. -/
def execEnforceWriteEnd (h : Fin 256) (ok : Bool) (err : BitVec 4) (s : State) : Host.Outcome State Fault Refusal :=
  finish (s.enforceRow h ok err)

/-- ENFORCE_RETRY (R222). The retry interval after a failed attempt ends and the next attempt starts. -/
def execEnforceRetry (h : Fin 256) (s : State) : Host.Outcome State Fault Refusal :=
  finish (s.enforceRetry h)

/-- OFFER (R228). A received OFFER is accepted or rejected. -/
def execOffer (p : Fin 4) (src : BitVec 14) (xid : Word) (w : Word) (s : State) : Host.Outcome State Fault Refusal :=
  finish (s.embMsg { kind := .offer, p := p, src := src, xid := xid, w := w })

/-- COMMIT (R228). A received COMMIT closes an incoming record and is answered DONE. -/
def execCommit (p : Fin 4) (src : BitVec 14) (xid : Word) (s : State) : Host.Outcome State Fault Refusal :=
  finish (s.embMsg { kind := .commit, p := p, src := src, xid := xid, w := 0 })

/-- CANCEL (R228). A received CANCEL is answered by the receiver's record state. -/
def execCancel (p : Fin 4) (src : BitVec 14) (xid : Word) (s : State) : Host.Outcome State Fault Refusal :=
  finish (s.embMsg { kind := .cancel, p := p, src := src, xid := xid, w := 0 })

/-- ASK (R227). A received ASK writes EMB_ASK and sets evpend.emb. -/
def execAsk (p : Fin 4) (w : Word) (s : State) : Host.Outcome State Fault Refusal :=
  finish (s.embMsg { kind := .ask, p := p, src := s.link.port[p].far, xid := w, w := 0 })

/-- ACCEPT (R229). A received ACCEPT settles the sender's transit and moves the record to COMMITTING. -/
def execAccept (p : Fin 4) (src : BitVec 14) (xid : Word) (w : Word) (s : State) : Host.Outcome State Fault Refusal :=
  finish (s.embMsg { kind := .accept, p := p, src := src, xid := xid, w := w })

/-- REJECT (R229). A received REJECT returns the amount to free and closes the record. -/
def execReject (p : Fin 4) (src : BitVec 14) (xid : Word) (reason : Word) (s : State) : Host.Outcome State Fault Refusal :=
  finish (s.embMsg { kind := .reject, p := p, src := src, xid := xid, w := reason })

/-- DONE (R229). A received DONE closes a COMMITTING record. -/
def execEmbDone (p : Fin 4) (src : BitVec 14) (xid : Word) (s : State) : Host.Outcome State Fault Refusal :=
  finish (s.embMsg { kind := .finished, p := p, src := src, xid := xid, w := 0 })

/-- XFER_RETRANSMIT (R229). t_retry elapses and an open record's message is sent again. -/
def execXferRetransmit (i : Fin 32) (s : State) : Host.Outcome State Fault Refusal :=
  finish (s.xferRetry i)

/-- OFFER_TIMEOUT (R229). t_offer elapses and an OFFERED record moves to CANCELLING. -/
def execOfferTimeout (i : Fin 32) (s : State) : Host.Outcome State Fault Refusal :=
  finish (s.offerTimeout i).embRun

end Sys2Proof.Machine
end

