-- ==== Sys2Proof/Machine/ExecLink.lean ====
section
/-! DEFINITION. Meanings of the Stack link frames, messages and commands (16_stack_link.md). -/

namespace Sys2Proof.Machine

/-- STACK_FRAME (R331). A tick frame is received on a port and its ack, credit and slots are handled. -/
def execStackFrame (p : Fin 4) (sq : Byte) (ack : Byte) (credit : Byte) (slots : List Msg) (s : State) : Host.Outcome State Fault Refusal :=
  finish (s.frameRx p sq ack credit slots)

/-- STACK_FRAME_SEND (R339). At cycle 540 a port starts its frame and fills its six slots. -/
def execStackFrameSend (p : Fin 4) (s : State) : Host.Outcome State Fault Refusal :=
  finish (s.frameSend p)

/-- STK_PORT_UP (R333). 64 consecutive valid frames put a training port UP. -/
def execStkPortUp (p : Fin 4) (far : BitVec 14) (s : State) : Host.Outcome State Fault Refusal :=
  finish (s.portUpRx p far)

/-- STK_PORT_DOWN (R333). A port loses lock or frames and goes DOWN. -/
def execStkPortDown (p : Fin 4) (lockLost : Bool) (s : State) : Host.Outcome State Fault Refusal :=
  finish (s.portDownRx p lockLost)

/-- STK_NODE_WRITE (R333). A write to STK_NODE.id sends every UP port back to TRAINING. -/
def execStkNodeWrite (ini : Initiator) (id : BitVec 14) (s : State) : Host.Outcome State Fault Refusal :=
  finish (s.regWrite ini 0xB0004 (zext id))

/-- STK_PORT_RETRAIN (R333). A write of STK_PORT_CTRL.retrain returns the port to TRAINING. -/
def execStkPortRetrain (ini : Initiator) (p : Fin 4) (s : State) : Host.Outcome State Fault Refusal :=
  finish (s.regWrite ini (stkA p.val 0) ((s.reg (stkA p.val 0) &&& 0x80000000) ||| 1))

/-- STK_PORT_CLR (R335). A write of STK_PORT_CTRL.clr clears the port error counters. -/
def execStkPortClr (ini : Initiator) (p : Fin 4) (s : State) : Host.Outcome State Fault Refusal :=
  finish (s.regWrite ini (stkA p.val 0) ((s.reg (stkA p.val 0) &&& 0x80000000) ||| 2))

/-- CTRL_MESSAGE (R336). A CTRL message is queued for SRECV or relayed. -/
def execCtrlMessage (p : Fin 4) (m : Msg) (s : State) : Host.Outcome State Fault Refusal :=
  finish (s.msgRx p m false)

/-- LOG_MESSAGE (R336). A LOG message is queued for SRECV or relayed. -/
def execLogMessage (p : Fin 4) (m : Msg) (s : State) : Host.Outcome State Fault Refusal :=
  finish (s.msgRx p m true)

/-- LEAD_RETURN (R370). A CTRL message of type 0x30 announcing a lead return is delivered to SRECV. -/
def execLeadReturn (p : Fin 4) (src : BitVec 14) (tk : Word) (id : Half) (s : State) : Host.Outcome State Fault Refusal :=
  finish (s.msgRx p (mkMsg 1 0x30 s.node src.toNat (wBytes tk ++ leBytes 2 id.toNat)) false)

/-- STK_IMPORT_STALE (R343). An import's age reaches the stale limit. -/
def execStkImportStale (i : Fin 32) (s : State) : Host.Outcome State Fault Refusal :=
  finish (s.importStale i)

/-- STK_CREDIT_STALL (R341). A class waits without credit for the stall limit. -/
def execStkCreditStall (p : Fin 4) (c : Fin 4) (s : State) : Host.Outcome State Fault Refusal :=
  finish (s.creditStall p c)

/-- STK_LEAD_CHANGE (R342). A write to STK_CLU changes the cluster role or lead. -/
def execStkLeadChange (ini : Initiator) (v : Word) (s : State) : Host.Outcome State Fault Refusal :=
  finish (s.regWrite ini 0xB000C v)

end Sys2Proof.Machine
end

