-- ==== Sys2Proof/Machine/ExecLoop.lean ====
section
/-! DEFINITION. Meanings of the watchdog, sequencer and Firebox commands and events (03 R89, 04, 05). -/

namespace Sys2Proof.Machine

/-- WATCHDOG_START (R89). A write of SYS_WDOG.en = 1 loads the watchdog counter with period. -/
def execWatchdogStart (ini : Initiator) (period : Byte) (s : State) : Host.Outcome State Fault Refusal :=
  finish (s.regWrite ini 0x68 (bw true 31 ||| zext period))

/-- WDOG_EXPIRED (R90). The watchdog counter reaches 0 and the safe state is taken. -/
def execWdogExpired (s : State) : Host.Outcome State Fault Refusal :=
  finish (s.wdogExpired)

/-- SEQ_INST_GO (R96). A go write to SEQ_INST_CMD starts validation of a table for installation. -/
def execSeqInstGo (ini : Initiator) (keep : Bool) (s : State) : Host.Outcome State Fault Refusal :=
  finish (s.regWrite ini 0xE0004 (bw true 31 ||| bw keep 16))

/-- SEQ_INST_REMOVE (R100). A go write with remove set requests removal of an installed table. -/
def execSeqInstRemove (ini : Initiator) (typ : BitVec 3) (id : Byte) (s : State) : Host.Outcome State Fault Refusal :=
  finish (s.regWrite ini 0xE0004 (bw true 31 ||| bw true 17 ||| at_ id 8 ||| zext typ))

/-- TABLE_VALIDATION_DONE (R425). Table validation completes with its result. -/
def execTableValidationDone (s : State) : Host.Outcome State Fault Refusal :=
  finish (s.seqValidated)

/-- TABLE_INSTALLED (R98). A validated table takes effect at the commit, replacing the old one. -/
def execTableInstalled (s : State) : Host.Outcome State Fault Refusal :=
  finish (s.seqInstall)

/-- TABLE_REMOVED (R100). A requested removal is decided and takes effect at the commit. -/
def execTableRemoved (s : State) : Host.Outcome State Fault Refusal :=
  finish (s.seqRemoved)

/-- SEQ_MEVSET (R109). A write to SEQ_MEVSET sets machine event bits. -/
def execSeqMevset (ini : Initiator) (j : Fin 64) (bits : BitVec 16) (s : State) : Host.Outcome State Fault Refusal :=
  finish (s.regWrite ini (0xE0300 + 4 * j.val) (zext bits))

/-- SEQ_TIMER_EXPIRE (R108). A sequencer timer expires, setting its expired bit and evpend.seq. -/
def execSeqTimerExpire (i : Fin 128) (s : State) : Host.Outcome State Fault Refusal :=
  finish (s.tmrExpire i)

/-- FE_EXPIRE (R155). A following-error window reaches t_fe and the context faults with cause 1. -/
def execFeExpire (x : Fin 128) (s : State) : Host.Outcome State Fault Refusal :=
  finish (s.feExpire x)

/-- FBX_CLR (R137). A host go write to FBX_CLR requests re-arm of a context. -/
def execFbxClr (ini : Initiator) (x : Fin 128) (s : State) : Host.Outcome State Fault Refusal :=
  finish (s.regWrite ini 0x10008 (bw true 31 ||| nw x.val))

/-- CTX_REARM (R137). A re-armed context's fault clears at the commit. -/
def execCtxRearm (x : Fin 128) (s : State) : Host.Outcome State Fault Refusal :=
  finish (s.rearmCtx x)

/-- EXPORT_MESSAGE (R134). An export message of Type 0x10 + j is received for latching. -/
def execExportMessage (src : BitVec 14) (j : Fin 16) (v0 : Word) (v1 : Word) (s : State) : Host.Outcome State Fault Refusal :=
  finish (s.exportRx src j v0 v1)

/-- IMPORT_LATCH (R134). Received exports and Draft forwards latch at cycle 0 of the next tick. -/
def execImportLatch (s : State) : Host.Outcome State Fault Refusal :=
  finish (s.importLatch)

/-- RESUME_PRIMED (R159). In tick h + r after handover, contexts are primed and the Firebox resumes. -/
def execResumePrimed (s : State) : Host.Outcome State Fault Refusal :=
  finish (s.resumePrimed)

end Sys2Proof.Machine
end

