-- ==== Sys2Proof/Machine/ExecNvm.lean ====
section
/-! DEFINITION. Meanings of the recorder, MRAM and fuse commands and events (12, 13, 14). -/

namespace Sys2Proof.Machine

/-- RATE_WINDOW_EXPIRE (R269). A rate-limit window expires and its summary record is posted. -/
def execRateWindowExpire (i : Fin 64) (s : State) : Host.Outcome State Fault Refusal :=
  finish (s.rateExpire i)

/-- LOG_RATE_WRITE (R268). A write to a LOG_RATE entry closes its open window. -/
def execLogRateWrite (ini : Initiator) (i : Fin 64) (w1 : Bool) (v : Word) (s : State) : Host.Outcome State Fault Refusal :=
  finish (s.regWrite ini (rateAddr i.val (if w1 then 1 else 0)) v)

/-- LOG_RING_WRITE (R267). The ring writer moves a staged record into the ring, making its evictions. -/
def execLogRingWrite (s : State) : Host.Outcome State Fault Refusal :=
  finish (s.ringWrite)

/-- LOG_REL_WRITE (R274). A write of LOG_REL releases records up to the offset or is refused. -/
def execLogRelWrite (ini : Initiator) (v : Word) (s : State) : Host.Outcome State Fault Refusal :=
  finish (s.regWrite ini 0x70010 v)

/-- LOG_CLR (R272). A write of LOG_CLR clears the drop, suppression and eviction counters. -/
def execLogClr (ini : Initiator) (s : State) : Host.Outcome State Fault Refusal :=
  finish (s.regWrite ini 0x70048 1)

/-- PFAIL (R275). PFAIL_N is first sampled asserted and a black-box commit starts. -/
def execPfail (s : State) : Host.Outcome State Fault Refusal :=
  finish (s.pfailSeen)

/-- BB_DONE (R275). A black-box commit completes its seal. -/
def execBbDone (s : State) : Host.Outcome State Fault Refusal :=
  finish (s.bbDone)

/-- BB_CONSUMED_WRITE (R277). The gated write of the consumed word is offered in a later tick until accepted. -/
def execBbConsumedWrite (s : State) : Host.Outcome State Fault Refusal :=
  finish (s.bbConsumed)

/-- NVM_CMD (R285). A go write to NVM_CMD queues the host page buffer as a gated page write. -/
def execNvmCmd (ini : Initiator) (page : BitVec 15) (s : State) : Host.Outcome State Fault Refusal :=
  finish (s.regWrite ini 0x80080 (bw true 31 ||| zext page))

/-- PAGE_WRITE_START (R288). A queued MRAM write starts if the hold-up covers it, or is abandoned with those behind it. -/
def execPageWriteStart (s : State) : Host.Outcome State Fault Refusal :=
  finish (s.pageStart)

/-- PAGE_WRITE_DONE (R284). A page or group write completes and the marker clears. -/
def execPageWriteDone (s : State) : Host.Outcome State Fault Refusal :=
  finish (s.pageDone.resetIfDue)

/-- MRAM_SCRUB (R283). The MRAM scrubber reads a group and rewrites it if corrected. -/
def execMramScrub (s : State) : Host.Outcome State Fault Refusal :=
  finish (s.mramScrub)

/-- UNLOCK_R (R293). NVM_PCMD UNLOCK_R grants the read unlock if the password matches. -/
def execUnlockR (ini : Initiator) (i : Fin 8) (s : State) : Host.Outcome State Fault Refusal :=
  finish (s.regWrite ini 0x80118 (nw (1 * 2 ^ 28 + i.val)))

/-- UNLOCK_W (R293). NVM_PCMD UNLOCK_W grants the write unlock if the password matches. -/
def execUnlockW (ini : Initiator) (i : Fin 8) (s : State) : Host.Outcome State Fault Refusal :=
  finish (s.regWrite ini 0x80118 (nw (2 * 2 ^ 28 + i.val)))

/-- LOCK (R293). NVM_PCMD LOCK withdraws both unlocks of the issuing class. -/
def execLock (ini : Initiator) (i : Fin 8) (s : State) : Host.Outcome State Fault Refusal :=
  finish (s.regWrite ini 0x80118 (nw (3 * 2 ^ 28 + i.val)))

/-- DEFINE (R295). NVM_PCMD DEFINE writes a partition descriptor to the system area. -/
def execDefine (ini : Initiator) (i : Fin 8) (s : State) : Host.Outcome State Fault Refusal :=
  finish (s.regWrite ini 0x80118 (nw (4 * 2 ^ 28 + i.val)))

/-- NVM_AB_REGISTER (R297). Writing NVM_AB.en from 0 to 1 registers an A/B record or refuses it. -/
def execNvmAbRegister (ini : Initiator) (i : Fin 16) (n : BitVec 3) (pageA : BitVec 15) (s : State) : Host.Outcome State Fault Refusal :=
  finish (s.regWrite ini (0x80400 + 16 * i.val) (bw true 31 ||| at_ n 16 ||| zext pageA))

/-- AB_VALIDATION_DONE (R298). Both copies are validated and the journal group is examined. -/
def execAbValidationDone (i : Fin 16) (s : State) : Host.Outcome State Fault Refusal :=
  finish (s.abDone i)

/-- PROGRAM (R311). OTP_CMD PROGRAM starts programming a fuse word after its checks. -/
def execProgram (ini : Initiator) (key : Byte) (tries : BitVec 4) (w : Byte) (rest : Word) (s : State) : Host.Outcome State Fault Refusal :=
  finish (s.regWrite ini 0x90004 (nw (1 * 2 ^ 28) ||| at_ key 16 ||| at_ tries 8 ||| zext w ||| (rest &&& 0x0F00F000)))

/-- OTP_PROGRAM_DONE (R312). A PROGRAM command ends by verification, attempt limit or PFAIL_N. -/
def execOtpProgramDone (att : BitVec 4) (reading : Word) (verified : Bool) (s : State) : Host.Outcome State Fault Refusal :=
  finish (s.otpDone att reading verified).resetIfDue

/-- SCREEN (R313). OTP_CMD SCREEN starts sensing every word at both references. -/
def execScreen (ini : Initiator) (key : Byte) (s : State) : Host.Outcome State Fault Refusal :=
  finish (s.regWrite ini 0x90004 (nw (2 * 2 ^ 28) ||| at_ key 16))

/-- OTP_SCREEN_DONE (R313). A screen completes and reports marginal words. -/
def execOtpScreenDone (marg : List Byte) (sgl : BitVec 9) (s : State) : Host.Outcome State Fault Refusal :=
  finish (s.otpScreenDone marg sgl)

end Sys2Proof.Machine
end

