-- ==== Sys2Proof/Machine/ExecPair.lean ====
section
/-! DEFINITION. Meanings of the pair link, handover, swap, witness and return events (17_pairing.md). -/

namespace Sys2Proof.Machine

/-- GRANT_WITHDRAWN (R346). WIT_GRANT is withdrawn and DAMPER_OUT and the PWM gate fall. -/
def execGrantWithdrawn (s : State) : Host.Outcome State Fault Refusal :=
  finish (s.grantWithdrawn)

/-- DAMPER_IN_CHANGE (R347). DAMPER_IN changes and the PWM gate opens after 200 ns or closes. -/
def execDamperInChange (level : Bool) (s : State) : Host.Outcome State Fault Refusal :=
  finish (s.damperChange level)

/-- PAIR_HANDOVER (R360). The standby samples WIT_GRANT asserted and becomes active. -/
def execPairHandover (s : State) : Host.Outcome State Fault Refusal :=
  finish (s.pairHandover)

/-- MIRROR_FRAME (R352). A pair-link mirror frame is received and checked. -/
def execMirrorFrame (bytes : List Byte) (s : State) : Host.Outcome State Fault Refusal :=
  finish (s.mirrorFrame bytes)

/-- MIRROR_APPLY (R358). At cycle 100 the standby applies a received frame and its records. -/
def execMirrorApply (s : State) : Host.Outcome State Fault Refusal :=
  finish (s.mirrorApply)

/-- MIRROR_ACK (R358). The active checks the standby's header ack and releases withheld effects. -/
def execMirrorAck (bytes : List Byte) (s : State) : Host.Outcome State Fault Refusal :=
  finish (s.mirrorAck bytes)

/-- PAIR_LINK_DOWN (R359). The standby becomes stale or the active goes solo. -/
def execPairLinkDown (s : State) : Host.Outcome State Fault Refusal :=
  finish (s.linkDown)

/-- PAIR_RESYNC (R369). A resynchronisation request starts SNAP transfer to the standby. -/
def execPairResync (s : State) : Host.Outcome State Fault Refusal :=
  finish (s.pairResync)

/-- PAIR_CMD_RELEASE (R361). A keyed write of PAIR_CMD.release makes the active release its damper line. -/
def execPairCmdRelease (ini : Initiator) (key : Byte) (s : State) : Host.Outcome State Fault Refusal :=
  finish (s.regWrite ini 0xC0014 (bw true 31 ||| at_ key 16))

/-- PAIR_CMD_SWAP (R366). A keyed write of PAIR_CMD.swap schedules a role swap. -/
def execPairCmdSwap (ini : Initiator) (key : Byte) (s : State) : Host.Outcome State Fault Refusal :=
  finish (s.regWrite ini 0xC0014 (bw true 30 ||| at_ key 16))

/-- SWAP_CHECK (R366). At tick b − 3 the active checks whether a scheduled swap may proceed. -/
def execSwapCheck (s : State) : Host.Outcome State Fault Refusal :=
  finish (s.swapCheck)

/-- PAIR_SWAP (R367). At boundary b the active yields and the standby takes the grant. -/
def execPairSwap (s : State) : Host.Outcome State Fault Refusal :=
  finish (s.pairSwap)

/-- WITNESS_HB_TIMEOUT (R350). The witness sees no edge from the granted controller for 3.2 µs and moves the grant. -/
def execWitnessHbTimeout (s : State) : Host.Outcome State Fault Refusal :=
  finish (s.witTimeout)

/-- WITNESS_FAULT_PULSE (R350). The witness receives FAULT from the granted controller and moves the grant. -/
def execWitnessFaultPulse (c : Ctl) (s : State) : Host.Outcome State Fault Refusal :=
  finish (s.witFault c)

/-- WITNESS_SWAP_PULSE (R350). The witness receives SWAP and grants the other controller as well. -/
def execWitnessSwapPulse (c : Ctl) (s : State) : Host.Outcome State Fault Refusal :=
  finish (s.witSwap c)

/-- WITNESS_ALIVE_PULSE (R350). A controller in witness role receives an ALIVE heartbeat pulse; it grants the first controller to become available, and during a swap it withdraws the old grant at the new active's pulse. -/
def execWitnessAlivePulse (c : Ctl) (s : State) : Host.Outcome State Fault Refusal :=
  finish (s.witAlive c)

/-- LEAD_HOME_EXPIRE (R370). The lead-return stability window expires and the lead return is announced. -/
def execLeadHomeExpire (s : State) : Host.Outcome State Fault Refusal :=
  finish (s.leadHome)

/-- LEAD_ROLE_TAKE (R370). At B + 1,024 the controller sets its cluster role to lead. -/
def execLeadRoleTake (s : State) : Host.Outcome State Fault Refusal :=
  finish (s.leadRoleTake)

/-- PARENT_HOME_EXPIRE (R371). The parent-return window expires and the follower rejoins its home parent. -/
def execParentHomeExpire (s : State) : Host.Outcome State Fault Refusal :=
  finish (s.parentHome)

/-- STANDBY_FRAME_SEND (R352). At cycle 300 of every tick the standby starts its pair-link frame, carrying its flags, seq and the ack of the last frame applied. -/
def execStandbyFrameSend (s : State) : Host.Outcome State Fault Refusal :=
  finish (s.standbySend)

end Sys2Proof.Machine
end

