-- ==== Sys2Proof/Machine/ExecPhs.lean ====
section
/-! DEFINITION. Meanings of the phase and rail events (07_phases.md). -/

namespace Sys2Proof.Machine

/-- PERIOD_START (R162). A phase's carrier reaches its offset and a switching period begins. -/
def execPeriodStart (n : Fin 48) (s : State) : Host.Outcome State Fault Refusal :=
  finish (s.periodStart n)

/-- COMPARATOR_TRIP (R162). The peak-current comparator finds the threshold crossed and ends the on-time. -/
def execComparatorTrip (n : Fin 48) (sense : BitVec 12) (on : BitVec 18) (s : State) : Host.Outcome State Fault Refusal :=
  finish (s.comparatorTrip n sense on)

/-- CARRIER_WRAP (R168). A rail carrier wraps and changed offsets take effect. -/
def execCarrierWrap (g : Fin 16) (s : State) : Host.Outcome State Fault Refusal :=
  finish (s.carrierWrap g)

/-- PHASE_AOC (R183). The sensed signal leaves the absolute window and the phase stops with cause 3. -/
def execPhaseAoc (n : Fin 48) (code : BitVec 12) (s : State) : Host.Outcome State Fault Refusal :=
  finish (s.phaseAoc n code)

/-- PHASE_SENSE_OPEN (R184). The off-time check finds the sense path open and stops the phase with cause 4. -/
def execPhaseSenseOpen (n : Fin 48) (s : State) : Host.Outcome State Fault Refusal :=
  finish (s.senseOpen n)

/-- PHASE_OPEN (R186). The 32nd consecutive counted period stops the phase with cause 5. -/
def execPhaseOpen (n : Fin 48) (s : State) : Host.Outcome State Fault Refusal :=
  finish (s.phaseOpen n)

/-- PHS_CLR_FAULT (R188). A write of PHS_CLR.fault clears a phase fault. -/
def execPhsClrFault (ini : Initiator) (n : Fin 48) (s : State) : Host.Outcome State Fault Refusal :=
  finish (s.regWrite ini (phA n.val 0x4C) 1)

/-- PHS_CLR_RETURNED (R188). A write of PHS_CLR.returned clears the burned bit. -/
def execPhsClrReturned (ini : Initiator) (n : Fin 48) (s : State) : Host.Outcome State Fault Refusal :=
  finish (s.regWrite ini (phA n.val 0x4C) 2)

/-- PHS_CLR_CNT (R182). A write of PHS_CLR.cnt clears PHS_CNT. -/
def execPhsClrCnt (ini : Initiator) (n : Fin 48) (s : State) : Host.Outcome State Fault Refusal :=
  finish (s.regWrite ini (phA n.val 0x4C) 4)

/-- PHASE_SHED (R173). After s_qual steps below shd the highest running phase is shed. -/
def execPhaseShed (g : Fin 16) (s : State) : Host.Outcome State Fault Refusal :=
  finish (s.shedPhase g)

/-- BURST_ENTER (R174). After b_qual steps at or below enter the rail enters BURST. -/
def execBurstEnter (g : Fin 16) (s : State) : Host.Outcome State Fault Refusal :=
  finish (s.burstEnter g)

/-- RAIL_INREG (R179). The 16th consecutive step within band sets inreg. -/
def execRailInreg (g : Fin 16) (s : State) : Host.Outcome State Fault Refusal :=
  finish (s.railInreg g)

/-- RETRIES_CLEAR (R179). The 1,024th consecutive step with inreg set returns retries to 0. -/
def execRetriesClear (g : Fin 16) (s : State) : Host.Outcome State Fault Refusal :=
  finish (s.retriesClear g)

/-- SOFT_START_DONE (R177). t_ss ticks after entry the rail moves from SOFT_START to RUN. -/
def execSoftStartDone (g : Fin 16) (s : State) : Host.Outcome State Fault Refusal :=
  finish (s.softStartDone g)

/-- SOFT_STOP_DONE (R180). t_sst ticks after entry the members stop and the rail enters OFF. -/
def execSoftStopDone (g : Fin 16) (s : State) : Host.Outcome State Fault Refusal :=
  finish (s.softStopDone g)

/-- HICCUP_DONE (R176). The hiccup time elapses and the rail restarts soft start. -/
def execHiccupDone (g : Fin 16) (s : State) : Host.Outcome State Fault Refusal :=
  finish (s.hiccupDone g)

/-- OFF_MIN_EXPIRE (R176). The minimum off time ends and a pending enable may start the rail. -/
def execOffMinExpire (g : Fin 16) (s : State) : Host.Outcome State Fault Refusal :=
  finish (s.offMinExpire g)

end Sys2Proof.Machine
end

