-- ==== Sys2Proof/Machine/ExecTick.lean ====
section
/-! DEFINITION. Meanings of the events of the tick, of register accesses, and of clock and time (01, 02). -/

namespace Sys2Proof.Machine

/-- TICK_START (R39). At cycle 0 of every tick TICK increments, all channels sample, pins are sampled, imports latch and the cycle-0 actions of every unit run. -/
def execTickStart (pins : PinSample) (s : State) : Host.Outcome State Fault Refusal :=
  finish (s.tickStart pins)

/-- CONVERSION_DONE (R41). An ADC slot ends and delivers a scaled FP32 sample of its channel to the Firebox. -/
def execConversionDone (c : Fin 96) (code : BitVec 14) (s : State) : Host.Outcome State Fault Refusal :=
  finish (s.convert c code)

/-- CONTEXT_RUN (R117). An enabled Firebox context reaches its start cycle, reads its sources and computes its law for the tick. -/
def execContextRun (x : Fin 128) (s : State) : Host.Outcome State Fault Refusal :=
  finish (s.contextRun x)

/-- OUTPUT_STROBE (R43). At cycle 240 outputs, references, limits and exports take effect together and thread F wakes. -/
def execOutputStrobe (s : State) : Host.Outcome State Fault Refusal :=
  finish (s.strobe)

/-- FRAME_OVERRUN (R85). Thread F has not yielded by cycle 540 and is preempted, counting an overrun. -/
def execFrameOverrun (s : State) : Host.Outcome State Fault Refusal :=
  finish (s.frameOverrun)

/-- SHADOW_COMMIT (R20). At cycle 599 shadow parameters are checked and copied to their active copies. -/
def execShadowCommit (s : State) : Host.Outcome State Fault Refusal :=
  finish (s.commit)

/-- SLOW_FRAME_BOUNDARY (R28). At the first tick of a slow frame the flag is set, the ash snapshot is latched and slow-frame counters advance. -/
def execSlowFrameBoundary (s : State) : Host.Outcome State Fault Refusal :=
  finish (s.slowBoundary)

/-- SRAM_SCRUB (R31). The background scrubber visits a memory word in a free cycle and writes back a corrected word. -/
def execSramScrub (a : Word) (s : State) : Host.Outcome State Fault Refusal :=
  finish (s.sramScrub a.toNat)

/-- REGISTER_WRITE (R8). A host or Stoker write to a register that has no row of its own takes effect under its field access types. -/
def execRegisterWrite (ini : Initiator) (a : Word) (v : Word) (s : State) : Host.Outcome State Fault Refusal :=
  finish (s.regWrite ini a.toNat v)

/-- ABSENT_UNIT_ACCESS (R2). An access to an absent unit or instance reads 0, writes nothing and sets unit_absent. -/
def execAbsentUnitAccess (_ini : Initiator) (a : Word) (s : State) : Host.Outcome State Fault Refusal :=
  finish (s.absentAccess a.toNat)

/-- UNMAPPED_ACCESS (R420). A host access to an unmapped address reads 0, writes nothing and sets unmapped. -/
def execUnmappedAccess (ini : Initiator) (a : Word) (s : State) : Host.Outcome State Fault Refusal :=
  finish (s.unmappedAccess ini a.toNat)

/-- TICK_LO_READ (R45). A read of SYS_TICK_LO returns TICK[31:0] and latches the upper bits and epoch for that initiator. -/
def execTickLoRead (ini : Initiator) (s : State) : Host.Outcome State Fault Refusal :=
  finish (s.tickLoRead ini)

/-- TICK_WRAP (R46). TICK wraps to 0 and the hall epoch increments in the same cycle. -/
def execTickWrap (s : State) : Host.Outcome State Fault Refusal :=
  finish (s.tickWrap)

/-- LINK_MODE_ENTER (R32). After src is set to 1 and the up_port has locked, the PLL changes to link mode. -/
def execLinkModeEnter (s : State) : Host.Outcome State Fault Refusal :=
  finish (s.linkEnter)

/-- LINK_CLK_LOST (R33). The recovered clock fails and the controller changes to reference mode within one tick. -/
def execLinkClkLost (s : State) : Host.Outcome State Fault Refusal :=
  finish (s.linkClkLost)

/-- REFCLK_LOST (R34). Four missing reference edges declare REFCLK absent, entering holdover in reference mode. -/
def execRefclkLost (s : State) : Host.Outcome State Fault Refusal :=
  finish (s.refclkLost)

/-- REFCLK_BACK (R35). REFCLK returns during holdover and the PLL relocks. -/
def execRefclkBack (s : State) : Host.Outcome State Fault Refusal :=
  finish (s.refclkBack)

/-- HOLDOVER_EXP (R35). Holdover lasts 10,000 ticks and every phase is stopped by hardware. -/
def execHoldoverExp (s : State) : Host.Outcome State Fault Refusal :=
  finish (s.holdoverExp)

/-- SYNC (R340). A TIME SYNC message from the parent updates the follower's offset, slewing, lock and count mismatch. -/
def execSync (p : Fin 4) (ptick : BitVec 48) (pepoch : BitVec 16) (hops : BitVec 4) (otick : BitVec 48) (late : Int) (s : State) : Host.Outcome State Fault Refusal :=
  finish (s.syncRx p ptick pepoch hops otick late)

/-- DELAY_REQ (R340). A TIME DELAY_REQ is received and answered with a DELAY_RSP carrying the turnaround. -/
def execDelayReq (p : Fin 4) (turn : Word) (s : State) : Host.Outcome State Fault Refusal :=
  finish (s.delayReqRx p turn)

/-- DELAY_RSP (R340). A TIME DELAY_RSP completes a hop-delay measurement of the port. -/
def execDelayRsp (p : Fin 4) (turn : Word) (trip : Word) (s : State) : Host.Outcome State Fault Refusal :=
  finish (s.delayRspRx p turn trip)

/-- TIME_LOST (R51). A follower loses time from its parent and runs free. -/
def execTimeLost (cause : Fin 3) (s : State) : Host.Outcome State Fault Refusal :=
  finish (s.timeLose cause)

/-- LINK_MODE_RETURN (R52). The up_port holds a valid stream for 64 ticks and the controller returns to link mode. -/
def execLinkModeReturn (s : State) : Host.Outcome State Fault Refusal :=
  finish (s.linkReturn)

/-- TIME_CMD_STEP (R52). A write of SYS_TIME_CMD.step requests adoption of the parent's tick count. -/
def execTimeCmdStep (ini : Initiator) (s : State) : Host.Outcome State Fault Refusal :=
  finish (s.regWrite ini 0x58 1)

/-- TIME_STEP (R52). At the parent's next slow-frame boundary the follower replaces its TICK with the parent's count. -/
def execTimeStep (s : State) : Host.Outcome State Fault Refusal :=
  finish (s.timeStep)

/-- TIME_CMD_SET_EPOCH (R46). The root writes SYS_TIME_CMD.set_epoch to request a new hall epoch. -/
def execTimeCmdSetEpoch (ini : Initiator) (e : BitVec 16) (s : State) : Host.Outcome State Fault Refusal :=
  finish (s.regWrite ini 0x58 (at_ e 16 ||| 2))

/-- EPOCH_SET (R46). The requested epoch takes effect at the next slow-frame boundary. -/
def execEpochSet (s : State) : Host.Outcome State Fault Refusal :=
  finish (s.epochSet)

end Sys2Proof.Machine
end

