-- ==== Sys2Proof/Machine/ExecTwi.lean ====
section
/-! DEFINITION. Meanings of the PMBus, two-wire and SPI commands and events (15_two_wire.md, 20 R417). -/

namespace Sys2Proof.Machine

/-- CLEAR_FAULTS (R328). PMBus CLEAR_FAULTS clears every latched status bit. -/
def execClearFaults (s : State) (pec : Option Byte := none) : Host.Outcome State Fault Refusal :=
  finish (s.clearFaults pec)

/-- STATUS_BYTE (R326). PMBus STATUS_BYTE reads or clears bits of the status low byte. -/
def execStatusByte (w : Option Byte) (s : State) (pec : Option Byte := none) : Host.Outcome State Fault Refusal :=
  finish (s.statusByte w pec)

/-- STATUS_WORD (R328). PMBus STATUS_WORD reads or clears latched status bits. -/
def execStatusWord (w : Option Half) (s : State) (pec : Option Byte := none) : Host.Outcome State Fault Refusal :=
  finish (s.statusWord w pec)

/-- STATUS_TEMPERATURE (R326). PMBus STATUS_TEMPERATURE reads or clears the thermal status. -/
def execStatusTemperature (w : Option Byte) (s : State) (pec : Option Byte := none) : Host.Outcome State Fault Refusal :=
  finish (s.statusTemp w pec)

/-- STATUS_CML (R326). PMBus STATUS_CML reads or clears communication faults. -/
def execStatusCml (w : Option Byte) (s : State) (pec : Option Byte := none) : Host.Outcome State Fault Refusal :=
  finish (s.statusCml w pec)

/-- STATUS_MFR_SPECIFIC (R326). PMBus STATUS_MFR_SPECIFIC reads or clears TWI_MFRSTAT. -/
def execStatusMfrSpecific (w : Option Byte) (s : State) (pec : Option Byte := none) : Host.Outcome State Fault Refusal :=
  finish (s.statusMfr w pec)

/-- PMBUS_REVISION (R326). PMBus PMBUS_REVISION returns 0x33. -/
def execPmbusRevision (s : State) : Host.Outcome State Fault Refusal :=
  finish (s.pmbusRev)

/-- MFR_ID (R326). PMBus MFR_ID returns the maker's name. -/
def execMfrId (s : State) : Host.Outcome State Fault Refusal :=
  finish (s.mfrId)

/-- MFR_MODEL (R326). PMBus MFR_MODEL returns the model from OTP_PART. -/
def execMfrModel (s : State) : Host.Outcome State Fault Refusal :=
  finish (s.mfrModel)

/-- MFR_ADDR (R326). PMBus MFR_ADDR sets or reads the access pointer and read length. -/
def execMfrAddr (w : Option (List Byte)) (pec : Option Byte) (s : State) (stop : Bool := true) : Host.Outcome State Fault Refusal :=
  finish (s.mfrAddr w pec stop)

/-- MFR_DATA (R327). PMBus MFR_DATA writes or reads words at the pointer. -/
def execMfrData (w : Option (List Byte)) (pec : Option Byte) (s : State) (stop : Bool := true) : Host.Outcome State Fault Refusal :=
  finish (s.mfrData w pec stop)

/-- MFR_EMB (R326). PMBus MFR_EMB issues an Ember host command or reads EMB_HRES. -/
def execMfrEmb (w : Option (List Byte)) (pec : Option Byte) (s : State) : Host.Outcome State Fault Refusal :=
  finish (s.mfrEmb w pec)

/-- MFR_TICK (R326). PMBus MFR_TICK returns TICK and epoch from one cycle. -/
def execMfrTick (s : State) : Host.Outcome State Fault Refusal :=
  finish (s.mfrTick)

/-- PMBUS_MAP_COMMAND (R112). A command code looked up in PMBUS_MAP reads or writes its mapped address. -/
def execPmbusMapCommand (i : Fin 3) (code : Byte) (w : Option (List Byte)) (pec : Option Byte) (s : State) : Host.Outcome State Fault Refusal :=
  finish (s.mapCommand i code w pec)

/-- ALERT_RESPONSE (R328). A read of address 0x0C while ALERT_N is asserted returns the port address. -/
def execAlertResponse (s : State) : Host.Outcome State Fault Refusal :=
  finish (s.alertResponse)

/-- HOST_COMMAND_EXEC (R321). A queued committed TWI0 transaction executes in the address space. -/
def execHostCommandExec (s : State) : Host.Outcome State Fault Refusal :=
  finish (s.hostExec)

/-- TWI_EARLY_START (R320). A START where an acknowledge was due aborts the transaction. -/
def execTwiEarlyStart (i : Fin 3) (cnt : Byte) (s : State) : Host.Outcome State Fault Refusal :=
  finish (s.earlyStart i cnt)

/-- TWI_STRETCH_TIMEOUT (R317). SCL is held low for 2 ms and the transaction is abandoned. -/
def execTwiStretchTimeout (i : Fin 3) (own : Bool) (s : State) : Host.Outcome State Fault Refusal :=
  finish (s.stretchTimeout i own)

/-- TWI_SELF_RESET (R317). A line held low for 25 ms resets the port and may clear the bus. -/
def execTwiSelfReset (i : Fin 3) (sda : Bool) (s : State) (clk : BitVec 4 := 9) : Host.Outcome State Fault Refusal :=
  finish (s.selfReset i sda clk)

/-- TWI_WAKE (R318). An address byte naming a sleeping port wakes it without acknowledging. -/
def execTwiWake (i : Fin 3) (s : State) : Host.Outcome State Fault Refusal :=
  finish (s.twiWake i)

/-- A go written to TWI_CX_CMD[i] (15 R324). -/
def State.cxGo (s : State) (ini : Initiator) (i : Fin 3) (proto : Nat) (pec : Bool) (addr : BitVec 7) (code : Byte) (len : BitVec 6) : State :=
  s.regWrite ini (twiA i.val 0x10) (bw true 31 ||| nw (proto * 2 ^ 28) ||| bw pec 27 ||| at_ addr 16 ||| at_ code 8 ||| zext len)

/-- SEND_BYTE (R324). TWI_CX_CMD with proto 0 starts a controller send-byte transaction. -/
def execSendByte (ini : Initiator) (i : Fin 3) (pec : Bool) (addr : BitVec 7) (code : Byte) (len : BitVec 6) (s : State) : Host.Outcome State Fault Refusal :=
  finish (s.cxGo ini i 0 pec addr code len)

/-- WRITE_BYTE (R324). TWI_CX_CMD with proto 1 starts a write-byte transaction. -/
def execWriteByte (ini : Initiator) (i : Fin 3) (pec : Bool) (addr : BitVec 7) (code : Byte) (len : BitVec 6) (s : State) : Host.Outcome State Fault Refusal :=
  finish (s.cxGo ini i 1 pec addr code len)

/-- WRITE_WORD (R324). TWI_CX_CMD with proto 2 starts a write-word transaction. -/
def execWriteWord (ini : Initiator) (i : Fin 3) (pec : Bool) (addr : BitVec 7) (code : Byte) (len : BitVec 6) (s : State) : Host.Outcome State Fault Refusal :=
  finish (s.cxGo ini i 2 pec addr code len)

/-- BLOCK_WRITE (R324). TWI_CX_CMD with proto 3 starts a block-write transaction. -/
def execBlockWrite (ini : Initiator) (i : Fin 3) (pec : Bool) (addr : BitVec 7) (code : Byte) (len : BitVec 6) (s : State) : Host.Outcome State Fault Refusal :=
  finish (s.cxGo ini i 3 pec addr code len)

/-- RECEIVE_BYTE (R324). TWI_CX_CMD with proto 4 starts a receive-byte transaction. -/
def execReceiveByte (ini : Initiator) (i : Fin 3) (pec : Bool) (addr : BitVec 7) (code : Byte) (len : BitVec 6) (s : State) : Host.Outcome State Fault Refusal :=
  finish (s.cxGo ini i 4 pec addr code len)

/-- READ_BYTE (R324). TWI_CX_CMD with proto 5 starts a read-byte transaction. -/
def execReadByte (ini : Initiator) (i : Fin 3) (pec : Bool) (addr : BitVec 7) (code : Byte) (len : BitVec 6) (s : State) : Host.Outcome State Fault Refusal :=
  finish (s.cxGo ini i 5 pec addr code len)

/-- READ_WORD (R324). TWI_CX_CMD with proto 6 starts a read-word transaction. -/
def execReadWord (ini : Initiator) (i : Fin 3) (pec : Bool) (addr : BitVec 7) (code : Byte) (len : BitVec 6) (s : State) : Host.Outcome State Fault Refusal :=
  finish (s.cxGo ini i 6 pec addr code len)

/-- BLOCK_READ (R324). TWI_CX_CMD with proto 7 starts a block-read transaction. -/
def execBlockRead (ini : Initiator) (i : Fin 3) (pec : Bool) (addr : BitVec 7) (code : Byte) (len : BitVec 6) (s : State) : Host.Outcome State Fault Refusal :=
  finish (s.cxGo ini i 7 pec addr code len)

/-- TWI_CX_DONE (R325). A controller transaction ends and its status is reported. -/
def execTwiCxDone (i : Fin 3) (status : BitVec 4) (rx : List Byte) (s : State) : Host.Outcome State Fault Refusal :=
  finish (s.cxDone i status rx)

/-- ARBITRATION_RETRY (R324). A controller port that lost arbitration sees a STOP on the bus and retries the whole transaction. -/
def execArbitrationRetry (i : Fin 3) (s : State) : Host.Outcome State Fault Refusal :=
  finish (s.arbRetry i)

/-- READ (R417). SPI READ returns words from the address space after wait nibbles. -/
def execRead (a : Word) (n : Nat) (s : State) : Host.Outcome State Fault Refusal :=
  finish (s.spiTxn 0x0B a n [])

/-- WRITE (R417). SPI WRITE queues 1 to 16 words for the address space. -/
def execWrite (a : Word) (ws : List Word) (s : State) : Host.Outcome State Fault Refusal :=
  finish (s.spiTxn 0x02 a 0 ws)

/-- STATUS (R417). SPI STATUS returns whether the write buffer is empty. -/
def execStatus (s : State) : Host.Outcome State Fault Refusal :=
  finish (s.spiTxn 0x05 0 0 [])

/-- SPI_WRITE_APPLY (R417). Queued SPI words are applied on consecutive served cycles. -/
def execSpiWriteApply (s : State) : Host.Outcome State Fault Refusal :=
  finish (s.spiApply)

end Sys2Proof.Machine
end

