-- ==== Sys2Proof/Machine/Dispatch.lean ====
section
/-! DEFINITION. The meaning of every command: one arm per constructor, each one call. -/

namespace Sys2Proof.Machine

def exec (i : Instr) (s : State) : Host.Outcome State Fault Refusal :=
  match i with
  | .tickStart pins => Sys2Proof.Machine.execTickStart pins s
  | .conversionDone c code => Sys2Proof.Machine.execConversionDone c code s
  | .contextRun x => Sys2Proof.Machine.execContextRun x s
  | .outputStrobe => Sys2Proof.Machine.execOutputStrobe s
  | .frameOverrun => Sys2Proof.Machine.execFrameOverrun s
  | .shadowCommit => Sys2Proof.Machine.execShadowCommit s
  | .slowFrameBoundary => Sys2Proof.Machine.execSlowFrameBoundary s
  | .sramScrub a => Sys2Proof.Machine.execSramScrub a s
  | .registerWrite ini a v => Sys2Proof.Machine.execRegisterWrite ini a v s
  | .absentUnitAccess ini a => Sys2Proof.Machine.execAbsentUnitAccess ini a s
  | .unmappedAccess ini a => Sys2Proof.Machine.execUnmappedAccess ini a s
  | .tickLoRead ini => Sys2Proof.Machine.execTickLoRead ini s
  | .tickWrap => Sys2Proof.Machine.execTickWrap s
  | .linkModeEnter => Sys2Proof.Machine.execLinkModeEnter s
  | .linkClkLost => Sys2Proof.Machine.execLinkClkLost s
  | .refclkLost => Sys2Proof.Machine.execRefclkLost s
  | .refclkBack => Sys2Proof.Machine.execRefclkBack s
  | .holdoverExp => Sys2Proof.Machine.execHoldoverExp s
  | .sync p ptick pepoch hops otick late => Sys2Proof.Machine.execSync p ptick pepoch hops otick late s
  | .delayReq p turn => Sys2Proof.Machine.execDelayReq p turn s
  | .delayRsp p turn trip => Sys2Proof.Machine.execDelayRsp p turn trip s
  | .timeLost cause => Sys2Proof.Machine.execTimeLost cause s
  | .linkModeReturn => Sys2Proof.Machine.execLinkModeReturn s
  | .timeCmdStep ini => Sys2Proof.Machine.execTimeCmdStep ini s
  | .timeStep => Sys2Proof.Machine.execTimeStep s
  | .timeCmdSetEpoch ini e => Sys2Proof.Machine.execTimeCmdSetEpoch ini e s
  | .epochSet => Sys2Proof.Machine.execEpochSet s
  | .add th rd rs1 rs2 => Sys2Proof.Machine.execAdd th rd rs1 rs2 s
  | .sub th rd rs1 rs2 => Sys2Proof.Machine.execSub th rd rs1 rs2 s
  | .and th rd rs1 rs2 => Sys2Proof.Machine.execAnd th rd rs1 rs2 s
  | .or th rd rs1 rs2 => Sys2Proof.Machine.execOr th rd rs1 rs2 s
  | .xor th rd rs1 rs2 => Sys2Proof.Machine.execXor th rd rs1 rs2 s
  | .sll th rd rs1 rs2 => Sys2Proof.Machine.execSll th rd rs1 rs2 s
  | .srl th rd rs1 rs2 => Sys2Proof.Machine.execSrl th rd rs1 rs2 s
  | .sra th rd rs1 rs2 => Sys2Proof.Machine.execSra th rd rs1 rs2 s
  | .slt th rd rs1 rs2 => Sys2Proof.Machine.execSlt th rd rs1 rs2 s
  | .sltu th rd rs1 rs2 => Sys2Proof.Machine.execSltu th rd rs1 rs2 s
  | .min th rd rs1 rs2 => Sys2Proof.Machine.execMin th rd rs1 rs2 s
  | .max th rd rs1 rs2 => Sys2Proof.Machine.execMax th rd rs1 rs2 s
  | .minu th rd rs1 rs2 => Sys2Proof.Machine.execMinu th rd rs1 rs2 s
  | .maxu th rd rs1 rs2 => Sys2Proof.Machine.execMaxu th rd rs1 rs2 s
  | .mul th rd rs1 rs2 => Sys2Proof.Machine.execMul th rd rs1 rs2 s
  | .mulh th rd rs1 rs2 => Sys2Proof.Machine.execMulh th rd rs1 rs2 s
  | .mulhu th rd rs1 rs2 => Sys2Proof.Machine.execMulhu th rd rs1 rs2 s
  | .div th rd rs1 rs2 => Sys2Proof.Machine.execDiv th rd rs1 rs2 s
  | .divu th rd rs1 rs2 => Sys2Proof.Machine.execDivu th rd rs1 rs2 s
  | .rem th rd rs1 rs2 => Sys2Proof.Machine.execRem th rd rs1 rs2 s
  | .remu th rd rs1 rs2 => Sys2Proof.Machine.execRemu th rd rs1 rs2 s
  | .addi th rd rs1 imm => Sys2Proof.Machine.execAddi th rd rs1 imm s
  | .andi th rd rs1 imm => Sys2Proof.Machine.execAndi th rd rs1 imm s
  | .ori th rd rs1 imm => Sys2Proof.Machine.execOri th rd rs1 imm s
  | .xori th rd rs1 imm => Sys2Proof.Machine.execXori th rd rs1 imm s
  | .slti th rd rs1 imm => Sys2Proof.Machine.execSlti th rd rs1 imm s
  | .sltiu th rd rs1 imm => Sys2Proof.Machine.execSltiu th rd rs1 imm s
  | .slli th rd rs1 sh => Sys2Proof.Machine.execSlli th rd rs1 sh s
  | .srli th rd rs1 sh => Sys2Proof.Machine.execSrli th rd rs1 sh s
  | .srai th rd rs1 sh => Sys2Proof.Machine.execSrai th rd rs1 sh s
  | .lui th rd imm => Sys2Proof.Machine.execLui th rd imm s
  | .lw th rd rs1 imm => Sys2Proof.Machine.execLw th rd rs1 imm s
  | .lh th rd rs1 imm => Sys2Proof.Machine.execLh th rd rs1 imm s
  | .lhu th rd rs1 imm => Sys2Proof.Machine.execLhu th rd rs1 imm s
  | .lb th rd rs1 imm => Sys2Proof.Machine.execLb th rd rs1 imm s
  | .lbu th rd rs1 imm => Sys2Proof.Machine.execLbu th rd rs1 imm s
  | .sw th rs2 rs1 imm => Sys2Proof.Machine.execSw th rs2 rs1 imm s
  | .sh th rs2 rs1 imm => Sys2Proof.Machine.execSh th rs2 rs1 imm s
  | .sb th rs2 rs1 imm => Sys2Proof.Machine.execSb th rs2 rs1 imm s
  | .flw th fd rs1 imm => Sys2Proof.Machine.execFlw th fd rs1 imm s
  | .fsw th fs2 rs1 imm => Sys2Proof.Machine.execFsw th fs2 rs1 imm s
  | .ldp th rd rs1 imm => Sys2Proof.Machine.execLdp th rd rs1 imm s
  | .stp th rs2 rs1 imm => Sys2Proof.Machine.execStp th rs2 rs1 imm s
  | .ldpd th rd rs1 imm => Sys2Proof.Machine.execLdpd th rd rs1 imm s
  | .stpd th rs2 rs1 imm => Sys2Proof.Machine.execStpd th rs2 rs1 imm s
  | .beq th rs1 rs2 off => Sys2Proof.Machine.execBeq th rs1 rs2 off s
  | .bne th rs1 rs2 off => Sys2Proof.Machine.execBne th rs1 rs2 off s
  | .blt th rs1 rs2 off => Sys2Proof.Machine.execBlt th rs1 rs2 off s
  | .bge th rs1 rs2 off => Sys2Proof.Machine.execBge th rs1 rs2 off s
  | .bltu th rs1 rs2 off => Sys2Proof.Machine.execBltu th rs1 rs2 off s
  | .bgeu th rs1 rs2 off => Sys2Proof.Machine.execBgeu th rs1 rs2 off s
  | .jal th rd off => Sys2Proof.Machine.execJal th rd off s
  | .jalr th rd rs1 imm => Sys2Proof.Machine.execJalr th rd rs1 imm s
  | .fadd th fd fs1 fs2 => Sys2Proof.Machine.execFadd th fd fs1 fs2 s
  | .fsub th fd fs1 fs2 => Sys2Proof.Machine.execFsub th fd fs1 fs2 s
  | .fmul th fd fs1 fs2 => Sys2Proof.Machine.execFmul th fd fs1 fs2 s
  | .fmac th fd fs1 fs2 => Sys2Proof.Machine.execFmac th fd fs1 fs2 s
  | .fdiv th fd fs1 fs2 => Sys2Proof.Machine.execFdiv th fd fs1 fs2 s
  | .fsqrt th fd fs1 => Sys2Proof.Machine.execFsqrt th fd fs1 s
  | .fmin th fd fs1 fs2 => Sys2Proof.Machine.execFmin th fd fs1 fs2 s
  | .fmax th fd fs1 fs2 => Sys2Proof.Machine.execFmax th fd fs1 fs2 s
  | .fclip th fd fs1 fs2 => Sys2Proof.Machine.execFclip th fd fs1 fs2 s
  | .fabs th fd fs1 => Sys2Proof.Machine.execFabs th fd fs1 s
  | .fneg th fd fs1 => Sys2Proof.Machine.execFneg th fd fs1 s
  | .fmov th fd fs1 => Sys2Proof.Machine.execFmov th fd fs1 s
  | .fcvtws th rd fs1 => Sys2Proof.Machine.execFcvtws th rd fs1 s
  | .fcvtsw th fd rs1 => Sys2Proof.Machine.execFcvtsw th fd rs1 s
  | .fmvxw th rd fs1 => Sys2Proof.Machine.execFmvxw th rd fs1 s
  | .fmvwx th fd rs1 => Sys2Proof.Machine.execFmvwx th fd rs1 s
  | .feq th rd fs1 fs2 => Sys2Proof.Machine.execFeq th rd fs1 fs2 s
  | .flt th rd fs1 fs2 => Sys2Proof.Machine.execFlt th rd fs1 fs2 s
  | .fle th rd fs1 fs2 => Sys2Proof.Machine.execFle th rd fs1 fs2 s
  | .yield th => Sys2Proof.Machine.execYield th s
  | .twait th rs1 => Sys2Proof.Machine.execTwait th rs1 s
  | .twaitWake => Sys2Proof.Machine.execTwaitWake s
  | .ewait th rd rs1 => Sys2Proof.Machine.execEwait th rd rs1 s
  | .ewaitWake => Sys2Proof.Machine.execEwaitWake s
  | .rdsr th rd sr => Sys2Proof.Machine.execRdsr th rd sr s
  | .wrsr th sr rs1 => Sys2Proof.Machine.execWrsr th sr rs1 s
  | .trap th rs1 => Sys2Proof.Machine.execTrap th rs1 s
  | .rett th => Sys2Proof.Machine.execRett th s
  | .wdkick th => Sys2Proof.Machine.execWdkick th s
  | .tstep th rd rs1 imm => Sys2Proof.Machine.execTstep th rd rs1 imm s
  | .tcurv th fd fs1 rs2 => Sys2Proof.Machine.execTcurv th fd fs1 rs2 s
  | .fbr th rd rs2 => Sys2Proof.Machine.execFbr th rd rs2 s
  | .fbw th rd rs1 rs2 => Sys2Proof.Machine.execFbw th rd rs1 rs2 s
  | .fbwp th rd rs1 rs2 => Sys2Proof.Machine.execFbwp th rd rs1 rs2 s
  | .fbst th rd rs2 => Sys2Proof.Machine.execFbst th rd rs2 s
  | .fbclr th rd rs2 => Sys2Proof.Machine.execFbclr th rd rs2 s
  | .emint th rd rs1 rs2 => Sys2Proof.Machine.execEmint th rd rs1 rs2 s
  | .eburn th rd rs1 rs2 => Sys2Proof.Machine.execEburn th rd rs1 rs2 s
  | .egrant th rd rs1 rs2 => Sys2Proof.Machine.execEgrant th rd rs1 rs2 s
  | .erevk th rd rs1 rs2 => Sys2Proof.Machine.execErevk th rd rs1 rs2 s
  | .exfer th rd rs1 rs2 => Sys2Proof.Machine.execExfer th rd rs1 rs2 s
  | .eqry th rd => Sys2Proof.Machine.execEqry th rd s
  | .tmeas th rd rs1 => Sys2Proof.Machine.execTmeas th rd rs1 s
  | .tres th rd rs1 => Sys2Proof.Machine.execTres th rd rs1 s
  | .loge th rd rs1 rs2 => Sys2Proof.Machine.execLoge th rd rs1 rs2 s
  | .nvwr th rd rs1 rs2 => Sys2Proof.Machine.execNvwr th rd rs1 rs2 s
  | .nvq th rd => Sys2Proof.Machine.execNvq th rd s
  | .ssend th rd rs1 rs2 => Sys2Proof.Machine.execSsend th rd rs1 rs2 s
  | .srecv th rd rs1 rs2 => Sys2Proof.Machine.execSrecv th rd rs1 rs2 s
  | .pmir th rd rs1 rs2 => Sys2Proof.Machine.execPmir th rd rs1 rs2 s
  | .watchdogStart ini period => Sys2Proof.Machine.execWatchdogStart ini period s
  | .wdogExpired => Sys2Proof.Machine.execWdogExpired s
  | .seqInstGo ini keep => Sys2Proof.Machine.execSeqInstGo ini keep s
  | .seqInstRemove ini typ id => Sys2Proof.Machine.execSeqInstRemove ini typ id s
  | .tableValidationDone => Sys2Proof.Machine.execTableValidationDone s
  | .tableInstalled => Sys2Proof.Machine.execTableInstalled s
  | .tableRemoved => Sys2Proof.Machine.execTableRemoved s
  | .seqMevset ini j bits => Sys2Proof.Machine.execSeqMevset ini j bits s
  | .seqTimerExpire t => Sys2Proof.Machine.execSeqTimerExpire t s
  | .feExpire x => Sys2Proof.Machine.execFeExpire x s
  | .fbxClr ini x => Sys2Proof.Machine.execFbxClr ini x s
  | .ctxRearm x => Sys2Proof.Machine.execCtxRearm x s
  | .exportMessage src j v0 v1 => Sys2Proof.Machine.execExportMessage src j v0 v1 s
  | .importLatch => Sys2Proof.Machine.execImportLatch s
  | .resumePrimed => Sys2Proof.Machine.execResumePrimed s
  | .periodStart n => Sys2Proof.Machine.execPeriodStart n s
  | .comparatorTrip n sense on => Sys2Proof.Machine.execComparatorTrip n sense on s
  | .carrierWrap g => Sys2Proof.Machine.execCarrierWrap g s
  | .phaseAoc n code => Sys2Proof.Machine.execPhaseAoc n code s
  | .phaseSenseOpen n => Sys2Proof.Machine.execPhaseSenseOpen n s
  | .phaseOpen n => Sys2Proof.Machine.execPhaseOpen n s
  | .phsClrFault ini n => Sys2Proof.Machine.execPhsClrFault ini n s
  | .phsClrReturned ini n => Sys2Proof.Machine.execPhsClrReturned ini n s
  | .phsClrCnt ini n => Sys2Proof.Machine.execPhsClrCnt ini n s
  | .phaseShed g => Sys2Proof.Machine.execPhaseShed g s
  | .burstEnter g => Sys2Proof.Machine.execBurstEnter g s
  | .railInreg g => Sys2Proof.Machine.execRailInreg g s
  | .retriesClear g => Sys2Proof.Machine.execRetriesClear g s
  | .softStartDone g => Sys2Proof.Machine.execSoftStartDone g s
  | .softStopDone g => Sys2Proof.Machine.execSoftStopDone g s
  | .hiccupDone g => Sys2Proof.Machine.execHiccupDone g s
  | .offMinExpire g => Sys2Proof.Machine.execOffMinExpire g s
  | .announce d src shape mag lead sq => Sys2Proof.Machine.execAnnounce d src shape mag lead sq s
  | .draftCancel d src lead sq => Sys2Proof.Machine.execDraftCancel d src lead sq s
  | .marker d src lead sq => Sys2Proof.Machine.execMarker d src lead sq s
  | .heartbeat d src sq => Sys2Proof.Machine.execHeartbeat d src sq s
  | .draftAccept => Sys2Proof.Machine.execDraftAccept s
  | .markerWindowOpen t => Sys2Proof.Machine.execMarkerWindowOpen t s
  | .draftNoshow t => Sys2Proof.Machine.execDraftNoshow t s
  | .draftEntryFree t => Sys2Proof.Machine.execDraftEntryFree t s
  | .draftSrcDown d src => Sys2Proof.Machine.execDraftSrcDown d src s
  | .draftFwdTraj p pw sw => Sys2Proof.Machine.execDraftFwdTraj p pw sw s
  | .draftFwdVpp p v tk => Sys2Proof.Machine.execDraftFwdVpp p v tk s
  | .draftFwdStale p => Sys2Proof.Machine.execDraftFwdStale p s
  | .acfailAssert t => Sys2Proof.Machine.execAcfailAssert t s
  | .acfailClear t => Sys2Proof.Machine.execAcfailClear t s
  | .acfailRampEnd t => Sys2Proof.Machine.execAcfailRampEnd t s
  | .dftClr ini => Sys2Proof.Machine.execDftClr ini s
  | .request ini h => Sys2Proof.Machine.execRequest ini h s
  | .embReturn ini h => Sys2Proof.Machine.execEmbReturn ini h s
  | .renew ini h => Sys2Proof.Machine.execRenew ini h s
  | .revokeAck ini h => Sys2Proof.Machine.execRevokeAck ini h s
  | .embWriteoff ini t => Sys2Proof.Machine.execEmbWriteoff ini t s
  | .embLeaseExp h => Sys2Proof.Machine.execEmbLeaseExp h s
  | .revokeDeadline h => Sys2Proof.Machine.execRevokeDeadline h s
  | .embEnforce h => Sys2Proof.Machine.execEmbEnforce h s
  | .enforceWriteEnd h ok err => Sys2Proof.Machine.execEnforceWriteEnd h ok err s
  | .enforceRetry h => Sys2Proof.Machine.execEnforceRetry h s
  | .offer p src xid w => Sys2Proof.Machine.execOffer p src xid w s
  | .commit p src xid => Sys2Proof.Machine.execCommit p src xid s
  | .cancel p src xid => Sys2Proof.Machine.execCancel p src xid s
  | .ask p w => Sys2Proof.Machine.execAsk p w s
  | .accept p src xid w => Sys2Proof.Machine.execAccept p src xid w s
  | .reject p src xid reason => Sys2Proof.Machine.execReject p src xid reason s
  | .embDone p src xid => Sys2Proof.Machine.execEmbDone p src xid s
  | .xferRetransmit t => Sys2Proof.Machine.execXferRetransmit t s
  | .offerTimeout t => Sys2Proof.Machine.execOfferTimeout t s
  | .thmMeasStart => Sys2Proof.Machine.execThmMeasStart s
  | .thmMeasDone mean brk => Sys2Proof.Machine.execThmMeasDone mean brk s
  | .thmGraceExpire z => Sys2Proof.Machine.execThmGraceExpire z s
  | .thmSubst ini z tNew tOld => Sys2Proof.Machine.execThmSubst ini z tNew tOld s
  | .thmZoneDisable ini z => Sys2Proof.Machine.execThmZoneDisable ini z s
  | .thmZmemWrite ini z hi v => Sys2Proof.Machine.execThmZmemWrite ini z hi v s
  | .batQset ini b v => Sys2Proof.Machine.execBatQset ini b v s
  | .batQsetApply b => Sys2Proof.Machine.execBatQsetApply b s
  | .batFullAnchor b => Sys2Proof.Machine.execBatFullAnchor b s
  | .batCutoff b => Sys2Proof.Machine.execBatCutoff b s
  | .batRest b => Sys2Proof.Machine.execBatRest b s
  | .batLcmdReset ini b => Sys2Proof.Machine.execBatLcmdReset ini b s
  | .batLcmdWbAck ini b => Sys2Proof.Machine.execBatLcmdWbAck ini b s
  | .batShipEnter ini key => Sys2Proof.Machine.execBatShipEnter ini key s
  | .shipModeSet => Sys2Proof.Machine.execShipModeSet s
  | .batShipRelease ini => Sys2Proof.Machine.execBatShipRelease ini s
  | .shipModeClear => Sys2Proof.Machine.execShipModeClear s
  | .chgdetWake => Sys2Proof.Machine.execChgdetWake s
  | .rateWindowExpire t => Sys2Proof.Machine.execRateWindowExpire t s
  | .logRateWrite ini t w1 v => Sys2Proof.Machine.execLogRateWrite ini t w1 v s
  | .logRingWrite => Sys2Proof.Machine.execLogRingWrite s
  | .logRelWrite ini v => Sys2Proof.Machine.execLogRelWrite ini v s
  | .logClr ini => Sys2Proof.Machine.execLogClr ini s
  | .pfail => Sys2Proof.Machine.execPfail s
  | .bbDone => Sys2Proof.Machine.execBbDone s
  | .bbConsumedWrite => Sys2Proof.Machine.execBbConsumedWrite s
  | .nvmCmd ini page => Sys2Proof.Machine.execNvmCmd ini page s
  | .pageWriteStart => Sys2Proof.Machine.execPageWriteStart s
  | .pageWriteDone => Sys2Proof.Machine.execPageWriteDone s
  | .mramScrub => Sys2Proof.Machine.execMramScrub s
  | .unlockR ini t => Sys2Proof.Machine.execUnlockR ini t s
  | .unlockW ini t => Sys2Proof.Machine.execUnlockW ini t s
  | .lock ini t => Sys2Proof.Machine.execLock ini t s
  | .define ini t => Sys2Proof.Machine.execDefine ini t s
  | .nvmAbRegister ini t n pageA => Sys2Proof.Machine.execNvmAbRegister ini t n pageA s
  | .abValidationDone t => Sys2Proof.Machine.execAbValidationDone t s
  | .program ini key tries w rest => Sys2Proof.Machine.execProgram ini key tries w rest s
  | .otpProgramDone att reading verified => Sys2Proof.Machine.execOtpProgramDone att reading verified s
  | .screen ini key => Sys2Proof.Machine.execScreen ini key s
  | .otpScreenDone marg sgl => Sys2Proof.Machine.execOtpScreenDone marg sgl s
  | .clearFaults pec => Sys2Proof.Machine.execClearFaults s pec
  | .statusByte w pec => Sys2Proof.Machine.execStatusByte w s pec
  | .statusWord w pec => Sys2Proof.Machine.execStatusWord w s pec
  | .statusTemperature w pec => Sys2Proof.Machine.execStatusTemperature w s pec
  | .statusCml w pec => Sys2Proof.Machine.execStatusCml w s pec
  | .statusMfrSpecific w pec => Sys2Proof.Machine.execStatusMfrSpecific w s pec
  | .pmbusRevision => Sys2Proof.Machine.execPmbusRevision s
  | .mfrId => Sys2Proof.Machine.execMfrId s
  | .mfrModel => Sys2Proof.Machine.execMfrModel s
  | .mfrAddr w pec stop => Sys2Proof.Machine.execMfrAddr w pec s stop
  | .mfrData w pec stop => Sys2Proof.Machine.execMfrData w pec s stop
  | .mfrEmb w pec => Sys2Proof.Machine.execMfrEmb w pec s
  | .mfrTick => Sys2Proof.Machine.execMfrTick s
  | .pmbusMapCommand t code w pec => Sys2Proof.Machine.execPmbusMapCommand t code w pec s
  | .alertResponse => Sys2Proof.Machine.execAlertResponse s
  | .hostCommandExec => Sys2Proof.Machine.execHostCommandExec s
  | .twiEarlyStart t cnt => Sys2Proof.Machine.execTwiEarlyStart t cnt s
  | .twiStretchTimeout t own => Sys2Proof.Machine.execTwiStretchTimeout t own s
  | .twiSelfReset t sda clk => Sys2Proof.Machine.execTwiSelfReset t sda s clk
  | .twiWake t => Sys2Proof.Machine.execTwiWake t s
  | .sendByte ini t pec addr code len => Sys2Proof.Machine.execSendByte ini t pec addr code len s
  | .writeByte ini t pec addr code len => Sys2Proof.Machine.execWriteByte ini t pec addr code len s
  | .writeWord ini t pec addr code len => Sys2Proof.Machine.execWriteWord ini t pec addr code len s
  | .blockWrite ini t pec addr code len => Sys2Proof.Machine.execBlockWrite ini t pec addr code len s
  | .receiveByte ini t pec addr code len => Sys2Proof.Machine.execReceiveByte ini t pec addr code len s
  | .readByte ini t pec addr code len => Sys2Proof.Machine.execReadByte ini t pec addr code len s
  | .readWord ini t pec addr code len => Sys2Proof.Machine.execReadWord ini t pec addr code len s
  | .blockRead ini t pec addr code len => Sys2Proof.Machine.execBlockRead ini t pec addr code len s
  | .twiCxDone t status rx => Sys2Proof.Machine.execTwiCxDone t status rx s
  | .stackFrame p sq ack credit slots => Sys2Proof.Machine.execStackFrame p sq ack credit slots s
  | .stackFrameSend p => Sys2Proof.Machine.execStackFrameSend p s
  | .stkPortUp p far => Sys2Proof.Machine.execStkPortUp p far s
  | .stkPortDown p lockLost => Sys2Proof.Machine.execStkPortDown p lockLost s
  | .stkNodeWrite ini id => Sys2Proof.Machine.execStkNodeWrite ini id s
  | .stkPortRetrain ini p => Sys2Proof.Machine.execStkPortRetrain ini p s
  | .stkPortClr ini p => Sys2Proof.Machine.execStkPortClr ini p s
  | .ctrlMessage p m => Sys2Proof.Machine.execCtrlMessage p m s
  | .logMessage p m => Sys2Proof.Machine.execLogMessage p m s
  | .leadReturn p src tk id => Sys2Proof.Machine.execLeadReturn p src tk id s
  | .stkImportStale t => Sys2Proof.Machine.execStkImportStale t s
  | .stkCreditStall p c => Sys2Proof.Machine.execStkCreditStall p c s
  | .stkLeadChange ini v => Sys2Proof.Machine.execStkLeadChange ini v s
  | .grantWithdrawn => Sys2Proof.Machine.execGrantWithdrawn s
  | .damperInChange level => Sys2Proof.Machine.execDamperInChange level s
  | .pairHandover => Sys2Proof.Machine.execPairHandover s
  | .mirrorFrame bytes => Sys2Proof.Machine.execMirrorFrame bytes s
  | .mirrorApply => Sys2Proof.Machine.execMirrorApply s
  | .mirrorAck bytes => Sys2Proof.Machine.execMirrorAck bytes s
  | .pairLinkDown => Sys2Proof.Machine.execPairLinkDown s
  | .pairResync => Sys2Proof.Machine.execPairResync s
  | .pairCmdRelease ini key => Sys2Proof.Machine.execPairCmdRelease ini key s
  | .pairCmdSwap ini key => Sys2Proof.Machine.execPairCmdSwap ini key s
  | .swapCheck => Sys2Proof.Machine.execSwapCheck s
  | .pairSwap => Sys2Proof.Machine.execPairSwap s
  | .witnessHbTimeout => Sys2Proof.Machine.execWitnessHbTimeout s
  | .witnessFaultPulse c => Sys2Proof.Machine.execWitnessFaultPulse c s
  | .witnessSwapPulse c => Sys2Proof.Machine.execWitnessSwapPulse c s
  | .leadHomeExpire => Sys2Proof.Machine.execLeadHomeExpire s
  | .leadRoleTake => Sys2Proof.Machine.execLeadRoleTake s
  | .parentHomeExpire => Sys2Proof.Machine.execParentHomeExpire s
  | .powerOnReset => Sys2Proof.Machine.execPowerOnReset s
  | .resetNAssert => Sys2Proof.Machine.execResetNAssert s
  | .sysRstCmd ini key => Sys2Proof.Machine.execSysRstCmd ini key s
  | .shipWake => Sys2Proof.Machine.execShipWake s
  | .pllLock => Sys2Proof.Machine.execPllLock s
  | .fuseSenseDone readings => Sys2Proof.Machine.execFuseSenseDone readings s
  | .imageLoadDone => Sys2Proof.Machine.execImageLoadDone s
  | .bbValidationDone => Sys2Proof.Machine.execBbValidationDone s
  | .pairRoleWindowExpire => Sys2Proof.Machine.execPairRoleWindowExpire s
  | .boot => Sys2Proof.Machine.execBoot s
  | .run ini => Sys2Proof.Machine.execRun ini s
  | .idle ini => Sys2Proof.Machine.execIdle ini s
  | .sleep ini => Sys2Proof.Machine.execSleep ini s
  | .ship ini => Sys2Proof.Machine.execShip ini s
  | .powerState => Sys2Proof.Machine.execPowerState s
  | .analogSettled => Sys2Proof.Machine.execAnalogSettled s
  | .sleepWake src => Sys2Proof.Machine.execSleepWake src s
  | .read a n => Sys2Proof.Machine.execRead a n s
  | .write a ws => Sys2Proof.Machine.execWrite a ws s
  | .status => Sys2Proof.Machine.execStatus s
  | .spiWriteApply => Sys2Proof.Machine.execSpiWriteApply s
  | .illegalEncoding th w => Sys2Proof.Machine.execIllegalEncoding th w s
  | .witnessAlivePulse c => Sys2Proof.Machine.execWitnessAlivePulse c s
  | .resetNRelease straps => Sys2Proof.Machine.execResetNRelease straps s
  | .draftFrameInvalid d codeOk w => Sys2Proof.Machine.execDraftFrameInvalid d codeOk w s
  | .standbyFrameSend => Sys2Proof.Machine.execStandbyFrameSend s
  | .arbitrationRetry t => Sys2Proof.Machine.execArbitrationRetry t s

end Sys2Proof.Machine
end

