-- ==== Sys2Proof/WellFormed.lean ====
section
/-! DEFINITION. Which operands the outside world can give (the meanings are total all the same: an ill-formed command has the effect
its rule gives the operands it has). -/

namespace Sys2Proof

/-- What the types do not say of a command's operands, by the rule that bounds them. -/
def Instr.wf : Instr → Bool
  | .tickStart pins => decide (pins.ash.length ≤ 16)
  | .registerWrite _ a _ => decide (a.toNat % 4 = 0)
  | .sramScrub a => decide (a.toNat % 4 = 0)
  | .sync _ _ _ hops _ _ => decide (hops.toNat ≤ 8)
  | .ldpd _ rd _ _ => !rd.getLsbD 0
  | .stpd _ rs2 _ _ => !rs2.getLsbD 0
  | .illegalEncoding th w => match decode th w with
    | none => true
    | some (.ldpd _ rd _ _) => rd.getLsbD 0
    | some (.stpd _ rs2 _ _) => rs2.getLsbD 0
    | some (.rdsr _ _ sr) => decide (11 ≤ sr.toNat)
    | some (.wrsr _ sr _) => decide (11 ≤ sr.toNat)
    | some _ => false
  | .rdsr _ _ sr => decide (sr.toNat ≤ 10)
  | .wrsr _ sr _ => decide (sr.toNat ≤ 10)
  | .enforceWriteEnd _ ok err => !ok || err == 0
  | .thmSubst _ _ tNew tOld => decide (tNew.toNat < 40) && decide (tOld.toNat < 40)
  | .otpScreenDone marg _ => decide (marg.length ≤ 256)
  | .mfrAddr w _ _ => match w with
    | some bs => decide (bs.length ≤ 255)
    | none => true
  | .mfrData w _ _ => match w with
    | some bs => decide (bs.length ≤ 255)
    | none => true
  | .mfrEmb w _ => match w with
    | some bs => decide (bs.length ≤ 255)
    | none => true
  | .pmbusMapCommand _ _ w _ => match w with
    | some bs => decide (bs.length ≤ 255)
    | none => true
  | .twiCxDone _ _ rx => decide (rx.length ≤ 32)
  | .stackFrame _ _ _ _ slots => decide (slots.length = 6)
  | .mirrorFrame bytes => decide (bytes.length ≤ 500)
  | .mirrorAck bytes => decide (bytes.length ≤ 500)
  | .fuseSenseDone rs => decide (rs.length ≤ 256)
  | .read _ n => decide (1 ≤ n)
  | .write _ ws => !ws.isEmpty
  | _ => true

end Sys2Proof
end

