-- ==== Sys2Proof/Safety.lean ====
section
/-! DEFINITION. What the statements mean by a safe state and a step that completes. -/

namespace Sys2Proof.Machine

/-- The sparse maps of the state are in canonical form, and every record of the last command has been staged, or is held while
cycle 0 lasts. -/
def State.Canonical (s : State) : Prop :=
  Memory.wf s.mem = true ∧ Regs.wf s.regs = true ∧ sparseWf (fun _ _ => true) s.ecc = true ∧ s.log.posted = []

/-- A command completes: it answers a next state that holds what is said of it. -/
def Does (c : Instr) (s : State) (P : State → Prop) : Prop := ∃ t, exec c s = .next t ∧ P t

/-- A thread runs an instruction of this cost now, its word is read without error, no record waits to be staged, and no hard stop of
cycle 540 is left to do. -/
def State.Ready (s : State) (th : Thread) (cost : Nat) : Prop :=
  (s.canRun th cost = true ∧ (s.stk.hardDue && decide (540 ≤ s.cycle)) = false) ∧ sget s.ecc ((s.th th).pc.toNat - (s.th th).pc.toNat % 4) = none ∧ s.log.posted = [] ∧ s.log.held = []

/-- The instruction at the program counter ends: the next program counter, and its cycles. -/
def State.done (s : State) (th : Thread) (cost : Nat) : State :=
  (s.modTh th fun t => { t with pc := t.pc + 4 }).spend cost

/-- The word around `a` lies in program, data or log SRAM and holds no error: a load reads it as it stands (03 R67, 01 R29). -/
def State.PlainWord (s : State) (a : Nat) : Prop := (inProg a || inSram a || inLog a) = true ∧ sget s.ecc (a - a % 4) = none

/-- A store of `n` bytes at `a` by the thread takes effect in memory: data SRAM outside the protected ranges, or program SRAM for
thread B (03 R67, 04 R97). -/
def State.Storable (s : State) (th : Thread) (a n : Nat) : Prop :=
  (inSram a = true ∧ s.protHit a n = false ∨ inProg a = true ∧ th = .B) ∧ sget s.ecc (a - a % 4) = none

/-- The Ember ledger is sound: the check of R213 finds nothing, and the outgoing transfers that have not settled amount to transit. -/
def State.PoolSound (s : State) : Prop :=
  embBreach s.emb = none ∧
  ((s.emb.xfer.toList.filter fun x => x.dir == 1 && x.st != 3).map fun x => x.w.toNat).sum = s.emb.transit.v.toNat

/-- The six counters of the Ember pool (09 R212). -/
def EmbSt.counters (e : EmbSt) : List Cnt := [e.total, e.free, e.granted, e.transit, e.pending, e.debt]

/-- A command is done with its effect: exec answers the state `u` it comes to, the records it posted staged. -/
def Gives (c : Instr) (s u : State) : Prop := exec c s = finish u

/-- A command is done with its effect, a state that holds what is said of it, and posts this record of the device, staged with the
others of the command. -/
def Tells (c : Instr) (s : State) (code sev : Nat) (ws : List Word) (P : State → Prop) : Prop :=
  ∃ u, Gives c s u ∧ P u ∧ ∃ r ∈ u.log.posted, r.org = .device ∧ r.code = BitVec.ofNat 12 code ∧ r.sev = BitVec.ofNat 3 sev ∧ r.payloads = [ws]

/-- An instruction ends: exec answers the state `u` of its effect, at the next program counter, its cycles past, its records staged. -/
def Ends (i : Instr) (s : State) (th : Thread) (cost : Nat) (u : State) : Prop := exec i s = finish (u.done th cost)

/-- An instruction traps with this cause and tval. -/
def Traps (i : Instr) (s : State) (th : Thread) (cause : Nat) (v : Word) : Prop := exec i s = finish (s.trapEntry th cause v)

end Sys2Proof.Machine
end

