-- ==== Sys2Proof/Certificates/Slice0/Obligations.lean ====
section
/-! DEFINITION. The statements for the provers. Each docstring names the rules of spec/ it formalises and the commands it speaks of. -/

open Sys2Proof Sys2Proof.Machine

/-! ### The block as a machine -/

/-- A step gives the command at the front of the queue to `exec`, on the state with the rest of the queue; with an empty queue the
block idles (the model's own queue, notes/assumptions/2.md). -/
def Obligations.StepRunsFrontCommand : Prop :=
  (∀ (c : Instr) (cs : List Instr) (s : State), s.pending = c :: cs → step s = exec c { s with pending := cs }) ∧
  (∀ s : State, s.pending = [] → step s = .next s)

/-- After reset: no command waits; TICK, hall epoch and every general, FP and trap register are 0 (R63, R64), tvec, fentry and the
program counters 0x0010_0000 (R64; 04 of the map), SYS_FRAME_CFG 0x0008_0200 and SYS_WDOG 16 (the register tables of
03_lerzia.md), no phase switches, every counter of the Ember pool is 0 with its
complement, no holder has a grant or a revocation pending and no operation is frozen (R212, R216), and nothing is written in memory. The
program counters are
the model's choice (notes/assumptions/6.md).
The model's own readings in it: notes/assumptions/7.md. -/
def Obligations.ResetState : Prop :=
  let s := State.reset
  s.pending = [] ∧ s.time.tick = 0 ∧ s.time.epoch = 0 ∧
  (∀ (th : Thread) (r : Reg) (f : FReg), s.gr th r = 0 ∧ s.fr th f = 0) ∧
  (∀ th : Thread, (s.th th).tvec = 0x00100000 ∧ (s.th th).tpc = 0 ∧ (s.th th).tcause = 0 ∧ (s.th th).tval = 0 ∧ (s.th th).fstat = 0 ∧
    (s.th th).intrap = false ∧ (s.th th).pc = 0x00100000) ∧
  s.stk.fentry = 0x00100000 ∧ s.stk.evpend = 0 ∧ s.reg 0x60 = 0x00080200 ∧ s.reg 0x68 = 16 ∧
  (∀ n : Fin 48, s.phs.ph[n].sw = false) ∧ (∀ g : Fin 16, s.phs.rail[g].state = .off) ∧ s.stk.safe = false ∧ s.mem = [] ∧
  (∀ c ∈ s.emb.counters, c = { v := 0, c := ~~~(0 : Word) }) ∧ s.emb.frozen = false ∧
  (∀ h : Fin 256, s.emb.hold[h].grant = { v := 0, c := ~~~(0 : Word) } ∧ s.emb.hold[h].pend = { v := 0, c := ~~~(0 : Word) })

/-- The state after reset is canonical: the invariant of `StepKeepsCanonical` holds to begin with.
The model's own readings in it: notes/assumptions/7.md. -/
def Obligations.ResetIsCanonical : Prop := State.reset.Canonical

/-- Every step keeps the canonical form of memory, of the register file and of the list of memory errors, and leaves no record
posted: it is staged, or held while cycle 0 lasts (12 R267: the records of a cycle are staged together).
The model's own readings in it: notes/assumptions/7.md. -/
def Obligations.StepKeepsCanonical : Prop := ∀ s t : State, s.Canonical → step s = .next t → t.Canonical

/-! ### Encodings (03_lerzia.md R70, R71) -/

/-- No bit of an encoding is dropped: the decoder reads every well-formed Lerzia instruction back from its word, with every
operand at every value. -/
def Obligations.DecodeOfEncode : Prop :=
  ∀ (i : Instr) (th : Thread) (w : Word), i.wf = true → threadOf i = some th → encode i = some w → decode th w = some i

/-- The words of 03_lerzia.md's worked example, the NOP, and the two words that are permanently illegal (R71). A word that the decoder refuses traps with cause 0x01, tval holding the word, in either thread (R71, R81).
The model's own readings in it: notes/assumptions/22.md. -/
def Obligations.ExampleAndIllegalWords : Prop :=
  (∀ th : Thread,
    decode th 0x08A6FFFD = some (.addi th 5 6 0xFFFD) ∧ decode th 0xCE0DA802 = some (.fbwp th 16 13 21) ∧
    decode th 0x08000000 = some (.addi th 0 0 0) ∧ decode th 0 = none ∧ decode th 0xFFFFFFFF = none) ∧
  (∀ (th : Thread) (w : Word) (s : State), s.Ready th 2 → (s.th th).intrap = false → decode th w = none →
    Does (.illegalEncoding th w) s fun t =>
      (t.th th).tcause = 0x01 ∧ (t.th th).tval = w ∧ (t.th th).tpc = (s.th th).pc ∧ (t.th th).intrap = true ∧ (t.th th).pc = (s.th th).tvec)

/-! ### Registers and integer instructions (R63, R73) -/

/-- g0 reads as 0 and a write to it changes nothing; any other general register and any FP register reads as written; the other
registers of the thread and the other thread keep theirs; reset sets every general and FP register of both threads to 0 (R63). -/
def Obligations.GeneralRegisters : Prop :=
  (∀ (s : State) (th : Thread) (v : Word),
    s.gr th 0 = 0 ∧ s.setGr th 0 v = s ∧
    (∀ r : Reg, r ≠ 0 → (s.setGr th r v).gr th r = v ∧ (∀ q : Reg, q ≠ r → (s.setGr th r v).gr th q = s.gr th q) ∧
      (∀ f : FReg, (s.setGr th r v).fr th f = s.fr th f) ∧ (∀ o : Thread, o ≠ th → (s.setGr th r v).th o = s.th o)) ∧
    (∀ f : FReg, (s.setFr th f v).fr th f = v ∧ (∀ q : FReg, q ≠ f → (s.setFr th f v).fr th q = s.fr th q) ∧
      (∀ r : Reg, (s.setFr th f v).gr th r = s.gr th r) ∧ (∀ o : Thread, o ≠ th → (s.setFr th f v).th o = s.th o))) ∧
  (∀ (th : Thread) (r : Reg) (f : FReg), State.reset.gr th r = 0 ∧ State.reset.fr th f = 0)

/-- Results of the integer register operations of one cycle: ADD, SUB, AND, OR, XOR, SLL, SRL, SRA, SLT, SLTU, MIN, MAX, MINU, MAXU
(R73). The state is otherwise as it was, but for the program counter and the cycle: exactly rd changes, and with rd = g0
nothing does (`GeneralRegisters`).
The model's own readings in it: notes/assumptions/4.md. -/
def Obligations.RegisterOperations : Prop :=
  ∀ (th : Thread) (rd rs1 rs2 : Reg) (s : State), s.Ready th 1 →
    let a := s.gr th rs1
    let b := s.gr th rs2
    let goes (v : Word) : Host.Outcome State Fault Refusal := .next ((s.setGr th rd v).done th 1)
    exec (.add th rd rs1 rs2) s = goes (BitVec.ofNat 32 (a.toNat + b.toNat)) ∧
    exec (.sub th rd rs1 rs2) s = goes (BitVec.ofInt 32 ((a.toNat : Int) - b.toNat)) ∧
    exec (.and th rd rs1 rs2) s = goes (a &&& b) ∧
    exec (.or th rd rs1 rs2) s = goes (a ||| b) ∧
    exec (.xor th rd rs1 rs2) s = goes (a ^^^ b) ∧
    exec (.sll th rd rs1 rs2) s = goes (BitVec.ofNat 32 (a.toNat * 2 ^ (b.toNat % 32))) ∧
    exec (.srl th rd rs1 rs2) s = goes (BitVec.ofNat 32 (a.toNat / 2 ^ (b.toNat % 32))) ∧
    exec (.sra th rd rs1 rs2) s = goes (BitVec.ofInt 32 (a.toInt / 2 ^ (b.toNat % 32))) ∧
    exec (.slt th rd rs1 rs2) s = goes (if a.toInt < b.toInt then 1 else 0) ∧
    exec (.sltu th rd rs1 rs2) s = goes (if a.toNat < b.toNat then 1 else 0) ∧
    exec (.min th rd rs1 rs2) s = goes (BitVec.ofInt 32 (min a.toInt b.toInt)) ∧
    exec (.max th rd rs1 rs2) s = goes (BitVec.ofInt 32 (max a.toInt b.toInt)) ∧
    exec (.minu th rd rs1 rs2) s = goes (BitVec.ofNat 32 (min a.toNat b.toNat)) ∧
    exec (.maxu th rd rs1 rs2) s = goes (BitVec.ofNat 32 (max a.toNat b.toNat))

/-- Results of MUL, MULH and MULHU, of two cycles: the low 32 bits of the product, and its high 32 bits, signed and unsigned
(R73). Nothing else changes but the program counter and the cycle. Results of DIV, DIVU, REM and REMU, of 34 cycles, with the rules of a zero divisor and of −2³¹ by −1: fstat.idz is set in
those cases, sticky, and no other flag changes (R64, R73).
The model's own readings in it: notes/assumptions/4.md. -/
def Obligations.MultiplicationAndDivision : Prop :=
  (∀ (th : Thread) (rd rs1 rs2 : Reg) (s : State), s.Ready th 2 →
    let a := s.gr th rs1
    let b := s.gr th rs2
    let goes (v : Word) : Host.Outcome State Fault Refusal := .next ((s.setGr th rd v).done th 2)
    exec (.mul th rd rs1 rs2) s = goes (BitVec.ofNat 32 (a.toNat * b.toNat)) ∧
    exec (.mulh th rd rs1 rs2) s = goes ((BitVec.ofInt 64 (a.toInt * b.toInt)).extractLsb' 32 32) ∧
    exec (.mulhu th rd rs1 rs2) s = goes ((BitVec.ofNat 64 (a.toNat * b.toNat)).extractLsb' 32 32)) ∧
  (∀ (th : Thread) (rd rs1 rs2 : Reg) (s : State), s.Ready th 34 →
    let a := s.gr th rs1
    let b := s.gr th rs2
    let ovf := a.toInt = -2147483648 ∧ b.toInt = -1
    let goes (v : Word) (idz : Prop) [Decidable idz] : Host.Outcome State Fault Refusal :=
      .next (((s.setGr th rd v).modTh th fun t => { t with fstat := if idz then t.fstat ||| 0x20 else t.fstat }).done th 34)
    exec (.div th rd rs1 rs2) s = goes (if b = 0 then 0 else if ovf then 0x7FFFFFFF else BitVec.ofInt 32 (a.toInt.tdiv b.toInt)) (b = 0 ∨ ovf) ∧
    exec (.rem th rd rs1 rs2) s = goes (if b = 0 ∨ ovf then 0 else BitVec.ofInt 32 (a.toInt.tmod b.toInt)) (b = 0 ∨ ovf) ∧
    exec (.divu th rd rs1 rs2) s = goes (if b = 0 then 0 else BitVec.ofNat 32 (a.toNat / b.toNat)) (b = 0) ∧
    exec (.remu th rd rs1 rs2) s = goes (if b = 0 then 0 else BitVec.ofNat 32 (a.toNat % b.toNat)) (b = 0))

/-- Results of ADDI, ANDI, ORI, XORI, SLTI, SLTIU, SLLI, SRLI, SRAI and LUI, of one cycle (R73). Nothing else changes but the
program counter and the cycle.
The model's own readings in it: notes/assumptions/4.md. -/
def Obligations.ImmediateOperations : Prop :=
  ∀ (th : Thread) (rd rs1 : Reg) (imm : BitVec 16) (sh : BitVec 5) (s : State), s.Ready th 1 →
    let a := s.gr th rs1
    let goes (v : Word) : Host.Outcome State Fault Refusal := .next ((s.setGr th rd v).done th 1)
    exec (.addi th rd rs1 imm) s = goes (BitVec.ofInt 32 ((a.toNat : Int) + imm.toInt)) ∧
    exec (.andi th rd rs1 imm) s = goes (a &&& BitVec.ofNat 32 imm.toNat) ∧
    exec (.ori th rd rs1 imm) s = goes (a ||| BitVec.ofNat 32 imm.toNat) ∧
    exec (.xori th rd rs1 imm) s = goes (a ^^^ BitVec.ofNat 32 imm.toNat) ∧
    exec (.slti th rd rs1 imm) s = goes (if a.toInt < imm.toInt then 1 else 0) ∧
    exec (.sltiu th rd rs1 imm) s = goes (if a.toNat < (BitVec.ofInt 32 imm.toInt).toNat then 1 else 0) ∧
    exec (.slli th rd rs1 sh) s = goes (BitVec.ofNat 32 (a.toNat * 2 ^ sh.toNat)) ∧
    exec (.srli th rd rs1 sh) s = goes (BitVec.ofNat 32 (a.toNat / 2 ^ sh.toNat)) ∧
    exec (.srai th rd rs1 sh) s = goes (BitVec.ofInt 32 (a.toInt / 2 ^ sh.toNat)) ∧
    exec (.lui th rd imm) s = goes (BitVec.ofNat 32 (imm.toNat * 65536))

/-! ### Loads, stores and pair accesses (R67-R69, R73-R75) -/

/-- Loads from program, data and log SRAM: LW, LH, LHU, LB, LBU and FLW give the bytes at rs1 + sext(imm16), little-endian, sign- or
zero-extended, in 2 cycles (R67, R73). Nothing else changes but the program counter and the cycle. Loads from any target that answers: the value that the read gives goes to the register, and the read's own effects stay; the
cost is 3 cycles for the register blocks (R67). Absent units and instances answer too (R69).
The model's own readings in it: notes/assumptions/4.md, 11.md, 58.md, 59.md. -/
def Obligations.Loads : Prop :=
  (∀ (th : Thread) (rd rs1 : Reg) (fd : FReg) (imm : BitVec 16) (s : State), s.Ready th 2 →
    let a := (s.gr th rs1 + imm.signExtend 32).toNat
    let half : BitVec 16 := s.byte (a + 1) ++ s.byte a
    let word : Word := s.byte (a + 3) ++ s.byte (a + 2) ++ s.byte (a + 1) ++ s.byte a
    let goes (v : Word) : Host.Outcome State Fault Refusal := .next ((s.setGr th rd v).done th 2)
    s.PlainWord a →
      (a % 4 = 0 → exec (.lw th rd rs1 imm) s = goes word ∧ exec (.flw th fd rs1 imm) s = .next ((s.setFr th fd word).done th 2)) ∧
      (a % 2 = 0 → exec (.lh th rd rs1 imm) s = goes (half.signExtend 32) ∧ exec (.lhu th rd rs1 imm) s = goes (half.setWidth 32)) ∧
      exec (.lb th rd rs1 imm) s = goes ((s.byte a).signExtend 32) ∧ exec (.lbu th rd rs1 imm) s = goes ((s.byte a).setWidth 32)) ∧
  (∀ (th : Thread) (rd rs1 : Reg) (fd : FReg) (imm : BitVec 16) (s : State),
    let a := (s.gr th rs1 + imm.signExtend 32).toNat
    let cost := if a < 0xF0000 then 3 else 2
    let got (n : Nat) := s.rd (iniTh th) a n
    let served (n : Nat) : Prop := a % n = 0 ∧ (got n).2.2 ≠ .unmapped ∧ (got n).2.2 ≠ .memErr
    let goes (n : Nat) (put : Word → State → State) : Host.Outcome State Fault Refusal :=
      .next (((put (got n).2.1 (got n).1).done th cost).settle)
    s.Ready th cost → ¬ (th = .F ∧ inMram a = true) →
      (served 4 → exec (.lw th rd rs1 imm) s = goes 4 (fun v u => u.setGr th rd v) ∧
        exec (.flw th fd rs1 imm) s = goes 4 (fun v u => u.setFr th fd v)) ∧
      (served 2 → exec (.lh th rd rs1 imm) s = goes 2 (fun v u => u.setGr th rd ((v.setWidth 16).signExtend 32)) ∧
        exec (.lhu th rd rs1 imm) s = goes 2 (fun v u => u.setGr th rd ((v.setWidth 16).setWidth 32))) ∧
      (served 1 → exec (.lb th rd rs1 imm) s = goes 1 (fun v u => u.setGr th rd ((v.setWidth 8).signExtend 32)) ∧
        exec (.lbu th rd rs1 imm) s = goes 1 (fun v u => u.setGr th rd ((v.setWidth 8).setWidth 32))))

/-- Stores to data SRAM and, by thread B, to program SRAM: SW, SH, SB and FSW change the bytes at rs1 + sext(imm16) alone, in 1
cycle (R67, R73): every byte of memory outside them reads as before, and the rest of the state is as it was but for the program
counter and the cycle. Stores to any target that takes them, registers among them: the write's own effects and no other; the cost is 2 cycles for the
register blocks (R67). A store that waits for room in the mirror changes nothing (17 R356).
The model's own readings in it: notes/assumptions/4.md, 11.md, 20.md, 21.md. -/
def Obligations.Stores : Prop :=
  (∀ (th : Thread) (rs2 rs1 : Reg) (fs2 : FReg) (imm : BitVec 16) (s : State), s.Ready th 1 → Memory.wf s.mem = true →
    let a := (s.gr th rs1 + imm.signExtend 32).toNat
    let stored (n : Nat) (v : Word) (t : State) : Prop :=
      t = State.done { s with mem := t.mem } th 1 ∧
      ∀ b : Nat, t.byte b = if a ≤ b ∧ b < a + n then BitVec.ofNat 8 (v.toNat / 2 ^ (8 * (b - a))) else s.byte b
    (a % 4 = 0 → s.Storable th a 4 → Does (.sw th rs2 rs1 imm) s (stored 4 (s.gr th rs2)) ∧ Does (.fsw th fs2 rs1 imm) s (stored 4 (s.fr th fs2))) ∧
    (a % 2 = 0 → s.Storable th a 2 → Does (.sh th rs2 rs1 imm) s (stored 2 (s.gr th rs2))) ∧
    (s.Storable th a 1 → Does (.sb th rs2 rs1 imm) s (stored 1 (s.gr th rs2)))) ∧
  (∀ (th : Thread) (rs2 rs1 : Reg) (fs2 : FReg) (imm : BitVec 16) (s : State),
    let a := (s.gr th rs1 + imm.signExtend 32).toNat
    let cost := if a < 0xF0000 then 2 else 1
    let put (n : Nat) (v : Word) := s.wr (iniTh th) a n v
    let goes (n : Nat) (v : Word) : Host.Outcome State Fault Refusal :=
      if (put n v).2 = .wait then .next s else .next (((put n v).1.done th cost).settle)
    let taken (n : Nat) (v : Word) : Prop := a % n = 0 ∧ ((put n v).2 = .ok ∨ (put n v).2 = .wait)
    s.Ready th cost → ¬ (th = .F ∧ (inMram a || inProg a) = true) →
      (taken 4 (s.gr th rs2) → exec (.sw th rs2 rs1 imm) s = goes 4 (s.gr th rs2)) ∧
      (taken 4 (s.fr th fs2) → exec (.fsw th fs2 rs1 imm) s = goes 4 (s.fr th fs2)) ∧
      (taken 2 ((s.gr th rs2).setWidth 16 |>.setWidth 32) → exec (.sh th rs2 rs1 imm) s = goes 2 ((s.gr th rs2).setWidth 16 |>.setWidth 32)) ∧
      (taken 1 ((s.gr th rs2).setWidth 8 |>.setWidth 32) → exec (.sb th rs2 rs1 imm) s = goes 1 ((s.gr th rs2).setWidth 8 |>.setWidth 32)))

/-- Loads and stores that trap give and store nothing, and tval holds the address: misaligned 0x04 (R68); thread F at the MRAM window
0x14, thread F storing to program SRAM 0x06, any store to the log or MRAM window 0x06, no target 0x05 (R67); a store into a protected range
of data SRAM 0x06 (R97); a load of a word with an uncorrectable error 0x08, after the error is marked in SYS_ECC_STAT and SYS_ECC_ADDR and
record 0x019 is posted (R30). That a misaligned access traps with 0x04 before any other cause is the model's choice
(notes/assumptions/22.md). -/
def Obligations.LoadsAndStoresThatTrap : Prop :=
  ∀ (th : Thread) (r rs1 : Reg) (f : FReg) (imm : BitVec 16) (s : State),
    let a := (s.gr th rs1 + imm.signExtend 32).toNat
    let loads : List (Nat × Instr) := [(4, .lw th r rs1 imm), (4, .flw th f rs1 imm), (2, .lh th r rs1 imm), (2, .lhu th r rs1 imm),
      (1, .lb th r rs1 imm), (1, .lbu th r rs1 imm)]
    let stores : List (Nat × Instr) := [(4, .sw th r rs1 imm), (4, .fsw th f rs1 imm), (2, .sh th r rs1 imm), (1, .sb th r rs1 imm)]
    let traps (c : Nat) (i : Instr) : Prop := exec i s = .next (s.trapEntry th c (BitVec.ofNat 32 a)).settle
    (s.Ready th (if a < 0xF0000 then 3 else 2) → ∀ p ∈ loads,
      (a % p.1 ≠ 0 → traps 0x04 p.2) ∧
      (a % p.1 = 0 → th = .F → inMram a = true → traps 0x14 p.2) ∧
      (a % p.1 = 0 → s.unmapped a = true → traps 0x05 p.2) ∧
      (a % p.1 = 0 → (inProg a || inSram a || inLog a) = true → sget s.ecc (a - a % 4) = some .uncorr →
        let w := BitVec.ofNat 32 (a - a % 4)
        let marked : State := { s with sys := { s.sys with eccUncorr := true, eccAddr := if s.sys.eccUncorr then s.sys.eccAddr else w } }
        let told := marked.dev 0x019 6 [w, iniWord (iniTh th)]
        exec p.2 s = .next (told.trapEntry th 0x08 (BitVec.ofNat 32 a)).settle)) ∧
    (s.Ready th 2 → ∀ p ∈ stores,
      (a % p.1 ≠ 0 → traps 0x04 p.2) ∧
      (a % p.1 = 0 → th = .F → inMram a = true → traps 0x14 p.2) ∧
      (a % p.1 = 0 → th = .F → inProg a = true → traps 0x06 p.2) ∧
      (a % p.1 = 0 → inLog a = true → traps 0x06 p.2) ∧
      (a % p.1 = 0 → inSram a = true → s.protHit a p.1 = true → traps 0x06 p.2) ∧
      (a % p.1 = 0 → th = .B → inMram a = true → traps 0x06 p.2) ∧
      (a % p.1 = 0 → s.unmapped a = true → traps 0x05 p.2))

/-- Complement-pair loads from program, data and log SRAM (R74): LDP and LDPD give the value, low word first, if the second half is
its complement, in 4 and 8 cycles; else they trap with cause 0x11 and leave the registers unchanged. An odd register field of LDPD is
an illegal encoding.
The model's own readings in it: notes/assumptions/4.md, 22.md. -/
def Obligations.PairLoads : Prop :=
  ∀ (th : Thread) (rd rs1 : Reg) (imm : BitVec 16) (s : State),
    let a := (s.gr th rs1 + imm.signExtend 32).toNat
    (s.Ready th 4 → a % 4 = 0 → s.PlainWord a → s.PlainWord (a + 4) →
      exec (.ldp th rd rs1 imm) s =
        if s.word (a + 4) = ~~~ s.word a then .next ((s.setGr th rd (s.word a)).done th 4)
        else .next (s.trapEntry th 0x11 (BitVec.ofNat 32 a)).settle) ∧
    (s.Ready th 8 → a % 8 = 0 → rd.toNat % 2 = 0 → s.PlainWord a → s.PlainWord (a + 4) → s.PlainWord (a + 8) → s.PlainWord (a + 12) →
      exec (.ldpd th rd rs1 imm) s =
        if s.word (a + 8) = ~~~ s.word a ∧ s.word (a + 12) = ~~~ s.word (a + 4) then
          .next (((s.setGr th rd (s.word a)).setGr th (rd + 1) (s.word (a + 4))).done th 8)
        else .next (s.trapEntry th 0x11 (BitVec.ofNat 32 a)).settle) ∧
    (s.Ready th 2 → rd.toNat % 2 = 1 → ∀ w, encode (.ldpd th rd rs1 imm) = some w →
      exec (.ldpd th rd rs1 imm) s = .next (s.trapEntry th 0x01 w).settle)

/-- Complement-pair stores to data SRAM and, by thread B, to program SRAM (R74): STP writes rs2 and its complement in 3 cycles, STPD
rs2, rs2 + 1 and their complements in 7, at ascending addresses; every other byte of memory and the rest of the state is as it was
but for the program counter and the cycle.
The model's own readings in it: notes/assumptions/4.md, 22.md. -/
def Obligations.PairStores : Prop :=
  ∀ (th : Thread) (rs2 rs1 : Reg) (imm : BitVec 16) (s : State), Memory.wf s.mem = true →
    let a := (s.gr th rs1 + imm.signExtend 32).toNat
    let v := s.gr th rs2
    let w := s.gr th (rs2 + 1)
    (s.Ready th 3 → a % 4 = 0 → s.Storable th a 4 → s.Storable th (a + 4) 4 →
      Does (.stp th rs2 rs1 imm) s fun t => t = State.done { s with mem := t.mem } th 3 ∧
        t.word a = v ∧ t.word (a + 4) = ~~~ v ∧ ∀ b, b < a ∨ a + 8 ≤ b → t.byte b = s.byte b) ∧
    (s.Ready th 7 → a % 8 = 0 → rs2.toNat % 2 = 0 → (∀ k : Fin 4, s.Storable th (a + 4 * k.val) 4) →
      Does (.stpd th rs2 rs1 imm) s fun t => t = State.done { s with mem := t.mem } th 7 ∧
        t.word a = v ∧ t.word (a + 4) = w ∧ t.word (a + 8) = ~~~ v ∧ t.word (a + 12) = ~~~ w ∧
        ∀ b, b < a ∨ a + 16 ≤ b → t.byte b = s.byte b)

/-! ### Branches and jumps (R72, R73) -/

/-- Conditional branches (BEQ, BNE, BLT, BGE, BLTU, BGEU) and JAL (R72). The target is the address of the instruction plus 4 × the
sign-extended offset, 16 bits of a branch (±128 KiB), 21 of a JAL (±4 MiB). Where the comparison holds, and for JAL always, the next
instruction is the target, 2 cycles later; where it does not, the next one, 1 cycle later. A target that is no 4-aligned address of
program SRAM traps with cause 0x03, tval the target. JAL writes the address of the next instruction to rd, unless it traps; nothing
else changes. -/
def Obligations.BranchesAndJal : Prop :=
  ∀ (th : Thread) (rd rs1 rs2 : Reg) (off : BitVec 16) (far : BitVec 21) (s : State),
    let a := s.gr th rs1
    let b := s.gr th rs2
    let good (target : Word) : Prop := target.toNat % 4 = 0 ∧ 0x100000 ≤ target.toNat ∧ target.toNat < 0x140000
    let target := (s.th th).pc + 4 * off.signExtend 32
    let rule (i : Instr) (take : Prop) : Prop :=
      (¬ take → s.Ready th 1 → exec i s = .next (s.done th 1)) ∧
      (take → good target → s.Ready th 2 → exec i s = .next ((s.modTh th fun t => { t with pc := target }).spend 2)) ∧
      (take → ¬ good target → s.Ready th 2 → exec i s = .next (s.trapEntry th 0x03 target).settle)
    let goal := (s.th th).pc + 4 * far.signExtend 32
    rule (.beq th rs1 rs2 off) (a = b) ∧ rule (.bne th rs1 rs2 off) (a ≠ b) ∧
    rule (.blt th rs1 rs2 off) (a.toInt < b.toInt) ∧ rule (.bge th rs1 rs2 off) (b.toInt ≤ a.toInt) ∧
    rule (.bltu th rs1 rs2 off) (a.toNat < b.toNat) ∧ rule (.bgeu th rs1 rs2 off) (b.toNat ≤ a.toNat) ∧
    (good goal → s.Ready th 2 → exec (.jal th rd far) s =
      .next (((s.setGr th rd ((s.th th).pc + 4)).modTh th fun t => { t with pc := goal }).spend 2)) ∧
    (¬ good goal → s.Ready th 2 → exec (.jal th rd far) s = .next (s.trapEntry th 0x03 goal).settle)

/-- JALR: rd takes the address of the next instruction, and the next one is at rs1 + sext(imm16), 2 cycles later; a target that is no
4-aligned address of program SRAM traps with cause 0x03 and leaves rd as it was (R73).
The model's own readings in it: notes/assumptions/4.md. -/
def Obligations.JalrJumps : Prop :=
  ∀ (th : Thread) (rd rs1 : Reg) (imm : BitVec 16) (s : State), s.Ready th 2 →
    let target := s.gr th rs1 + imm.signExtend 32
    let good := target.toNat % 4 = 0 ∧ 0x100000 ≤ target.toNat ∧ target.toNat < 0x140000
    (good → exec (.jalr th rd rs1 imm) s =
      .next (((s.setGr th rd ((s.th th).pc + 4)).modTh th fun t => { t with pc := target }).spend 2)) ∧
    (¬ good → exec (.jalr th rd rs1 imm) s = .next (s.trapEntry th 0x03 target).settle)

/-! ### FP32 instructions (R76) -/

/-- Operand and result rules of the FP32 arithmetic (R76): a subnormal operand acts as the zero of its sign; a NaN result is
0x7FC0_0000; no result is subnormal. FADD, FSUB, FMUL, FMAC and FDIV of finite operands round the exact result to nearest, ties to even: a
nonzero one below 2⁻¹²⁶ gives the zero of its sign with uf and nx, one that rounds beyond the largest finite number the infinity of its
sign with of and nx, any other the FP number nearest to it, with nx exactly where the two differ; an exact zero is a zero without flags. FSQRT rounds
so too. The rules of FDIV by zero, and FSQRT of a negative. Values are counted in units of 2⁻¹⁴⁹.
The model's own readings in it: notes/assumptions/8.md. -/
def Obligations.FpOperandRules : Prop :=
  ∀ a b d : Word,
    let frac (w : Word) : Nat := w.toNat % 2 ^ 23
    let expo (w : Word) : Nat := w.toNat / 2 ^ 23 % 256
    let z (w : Word) : Word := if expo w = 0 then w &&& 0x80000000 else w
    let finite (w : Word) : Prop := expo w ≠ 255
    let isNaN (w : Word) : Prop := expo w = 255 ∧ frac w ≠ 0
    let isInf (w : Word) : Prop := expo w = 255 ∧ frac w = 0
    let isZero (w : Word) : Prop := expo w = 0
    let infOf (neg : Bool) : Word := if neg then 0xFF800000 else 0x7F800000
    let well (w : Word) : Prop := (isNaN w → w = 0x7FC00000) ∧ (expo w = 0 → frac w = 0)
    (fpAdd a b = fpAdd (z a) (z b) ∧ fpSub a b = fpSub (z a) (z b) ∧ fpMul a b = fpMul (z a) (z b) ∧
      fpMac d a b = fpMac (z d) (z a) (z b) ∧ fpDiv a b = fpDiv (z a) (z b) ∧ fpSqrt a = fpSqrt (z a)) ∧
    (well (fpAdd a b).1 ∧ well (fpSub a b).1 ∧ well (fpMul a b).1 ∧ well (fpMac d a b).1 ∧ well (fpDiv a b).1 ∧ well (fpSqrt a).1) ∧
    let units (w : Word) : Int := (if w.getLsbD 31 then -1 else 1) * (if expo w = 0 then 0 else ((2 ^ 23 + frac w) * 2 ^ (expo w - 1) : Nat))
    let rounds (x : Int) (den : Nat) (r : Word × BitVec 6) : Prop :=
      if x = 0 then r.1 &&& 0x7FFFFFFF = 0 ∧ r.2 = 0
      else if x.natAbs < 2 ^ 23 * den then r = (if x < 0 then 0x80000000 else 0, 0x03)
      else if (2 ^ 25 - 1) * 2 ^ 252 * den ≤ x.natAbs then r = (infOf (x < 0), 0x05)
      else finite r.1 ∧ ¬ isZero r.1 ∧ r.1.getLsbD 31 = decide (x < 0) ∧ r.2 = (if x = den * units r.1 then 0 else 0x01) ∧
        ∀ q : Word, finite q → (x - den * units r.1).natAbs ≤ (x - den * units q).natAbs ∧
          ((x - den * units r.1).natAbs = (x - den * units q).natAbs → units q ≠ units r.1 → r.1.getLsbD 0 = false)
    (finite a → finite b →
      rounds (units a + units b) 1 (fpAdd a b) ∧ rounds (units a - units b) 1 (fpSub a b) ∧
      rounds (units a * units b) (2 ^ 149) (fpMul a b) ∧
      (finite d → rounds (units d * 2 ^ 149 + units a * units b) (2 ^ 149) (fpMac d a b)) ∧
      (¬ isZero b → rounds ((if b.getLsbD 31 then -units a else units a) * 2 ^ 149) (units b).natAbs (fpDiv a b)) ∧
      (0 < units a →
        let r := units (fpSqrt a).1
        finite (fpSqrt a).1 ∧ 0 < r ∧ (fpSqrt a).2 = (if r * r = units a * 2 ^ 149 then 0 else 0x01) ∧
        ∀ q : Word, finite q → 0 ≤ units q → (units q < r → (units q + r) * (units q + r) ≤ 4 * (units a * 2 ^ 149)) ∧
          (r < units q → 4 * (units a * 2 ^ 149) ≤ (units q + r) * (units q + r)))) ∧
    (finite a → ¬ isZero a → isZero b → fpDiv a b = (infOf (a.getLsbD 31 ^^ b.getLsbD 31), 0x08)) ∧
    (isInf a → isZero b → fpDiv a b = (infOf (a.getLsbD 31 ^^ b.getLsbD 31), 0)) ∧
    (isZero a → isZero b → fpDiv a b = (0x7FC00000, 0x10)) ∧
    (isInf a → isInf b → fpDiv a b = (0x7FC00000, 0x10)) ∧
    (a.getLsbD 31 = true → ¬ isZero a → ¬ isNaN a → fpSqrt a = (0x7FC00000, 0x10))

/-- FADD, FSUB, FMUL, FMAC, FDIV, FSQRT, FCVTSW, FMVWX, FABS, FNEG, FMOV: the result in fd, the flags added to fstat (sticky), in 2,
2, 2, 3, 12, 14, 2, 1, 1, 1 and 1 cycles; nothing else changes but the program counter and the cycle (R76). FCVTWS, FMVXW, FEQ, FLT and FLE: the result in rd, the flags added to fstat, in 2, 1, 1, 1 and 1 cycles (R76): FMVXW copies the bits,
a comparison gives 1 or 0, and 0 for a NaN operand, with nv set by FLT and FLE; FCVTWS of a NaN gives 0 with nv set. Nothing
else changes but the program counter and the cycle.
The model's own readings in it: notes/assumptions/4.md, 8.md. -/
def Obligations.FpResults : Prop :=
  (∀ (th : Thread) (fd fs1 fs2 : FReg) (rs1 : Reg) (s : State),
    let a := s.fr th fs1
    let b := s.fr th fs2
    let d := s.fr th fd
    let x := s.gr th rs1
    let rule (i : Instr) (v : Word × BitVec 6) (c : Nat) : Prop := s.Ready th c →
      exec i s = .next (((s.setFr th fd v.1).modTh th fun t => { t with fstat := t.fstat ||| v.2 }).done th c)
    rule (.fadd th fd fs1 fs2) (fpAdd a b) 2 ∧ rule (.fsub th fd fs1 fs2) (fpSub a b) 2 ∧ rule (.fmul th fd fs1 fs2) (fpMul a b) 2 ∧
    rule (.fmac th fd fs1 fs2) (fpMac d a b) 3 ∧ rule (.fdiv th fd fs1 fs2) (fpDiv a b) 12 ∧ rule (.fsqrt th fd fs1) (fpSqrt a) 14 ∧
    rule (.fcvtsw th fd rs1) (fOfInt x.toInt) 2 ∧ rule (.fmvwx th fd rs1) (x, 0) 1 ∧ rule (.fmov th fd fs1) (a, 0) 1 ∧
    rule (.fabs th fd fs1) (a &&& 0x7FFFFFFF, 0) 1 ∧ rule (.fneg th fd fs1) (a ^^^ 0x80000000, 0) 1) ∧
  (∀ (th : Thread) (rd : Reg) (fs1 fs2 : FReg) (s : State),
    let a := s.fr th fs1
    let b := s.fr th fs2
    let nan := fIsNaN a = true ∨ fIsNaN b = true
    let rule (i : Instr) (v : Word) (fl : BitVec 6) (c : Nat) : Prop := s.Ready th c →
      exec i s = .next (((s.setGr th rd v).modTh th fun t => { t with fstat := t.fstat ||| fl }).done th c)
    rule (.fcvtws th rd fs1) (fpToInt a).1 (fpToInt a).2 2 ∧ (fIsNaN a = true → fpToInt a = (0, 0x10)) ∧
    rule (.fmvxw th rd fs1) a 0 1 ∧
    rule (.feq th rd fs1 fs2) (if fpEq a b then 1 else 0) 0 1 ∧
    rule (.flt th rd fs1 fs2) (if fpLt a b then 1 else 0) (if fIsNaN a || fIsNaN b then 0x10 else 0) 1 ∧
    rule (.fle th rd fs1 fs2) (if fpLe a b then 1 else 0) (if fIsNaN a || fIsNaN b then 0x10 else 0) 1 ∧
    (nan → fpEq a b = false ∧ fpLt a b = false ∧ fpLe a b = false))

/-- FMIN, FMAX and FCLIP, of 1 cycle (R76): with a NaN operand FMIN and FMAX give the other one (a subnormal as zero, a NaN as the
quiet NaN); FCLIP gives min(max(fd, fs1), fs2), or fs1, taken so, with nv set where fd is NaN. Which of +0 and −0 is the less the spec does not
say: the two choices are free values drawn from Config.zeroChoice (notes/assumptions/9.md), and the statement holds whatever they
are.
The model's own readings in it: notes/assumptions/4.md. -/
def Obligations.FpMinMaxClip : Prop :=
  ∀ (th : Thread) (fd fs1 fs2 : FReg) (s : State), s.Ready th 1 →
    let a := s.fr th fs1
    let b := s.fr th fs2
    let d := s.fr th fd
    let z1 := Config.zeroChoice s.freeCtr
    let z2 := Config.zeroChoice (s.freeCtr + 1)
    let goes (v : Word) (fl : BitVec 6) : Host.Outcome State Fault Refusal :=
      .next (((State.setFr { s with freeCtr := s.freeCtr + 2 } th fd v).modTh th fun t => { t with fstat := t.fstat ||| fl }).done th 1)
    exec (.fmin th fd fs1 fs2) s = goes (fpMin z1 a b) 0 ∧ exec (.fmax th fd fs1 fs2) s = goes (fpMax z1 a b) 0 ∧
    exec (.fclip th fd fs1 fs2) s = (if fIsNaN d then goes (fTake a) 0x10 else goes (fpMin z2 (fpMax z1 d a) b) 0) ∧
    (∀ z : Bool, fIsNaN a = true → fpMin z a b = fTake b ∧ fpMax z a b = fTake b ∧ fpMin z b a = fTake b ∧ fpMax z b a = fTake b) ∧
    (∀ z : Bool, fpLt a b = true → fpMin z a b = fTake a ∧ fpMin z b a = fTake a ∧ fpMax z a b = fTake b ∧ fpMax z b a = fTake b)

/-! ### Threads, special registers and traps (R57-R65, R77, R80-R92) -/

/-- An instruction of a thread that may not run it changes nothing: thread F outside its slice, before cycle 240, past cycle 539 or
halted; thread B while it waits, is halted, is gated, F's slice is live, or cycle 240 has come and the strobe has not; every instruction of a thread, named by its word (R57, R60, R61, R77,
R83; the model's reading of who sends commands, notes/assumptions/10.md). -/
def Obligations.InstructionOutsideItsThreadIdles : Prop :=
  ∀ (i : Instr) (th : Thread) (w : Word) (s : State), s.log.posted = [] → s.log.held = [] → threadOf i = some th → encode i = some w →
    (match th with
      | .F => s.stk.fLive = false ∨ s.stk.fHalted = true ∨ s.cycle < 240 ∨ 540 ≤ s.cycle
      | .B => s.stk.b ≠ .running ∨ s.stk.bGated = true ∨ s.stk.fLive = true ∨ (s.time.strobeDue = true ∧ 240 ≤ s.cycle)) →
    exec i s = .next s

/-- Trap entry (R82): where status.intrap is 0, tpc takes the address of the trapping instruction, tcause and tval the cause and the value,
status.intrap is set, the thread goes on at tvec 2 cycles later, and record 0x030 is posted with the thread, the cause, tpc and tval;
nothing else changes, so the trapping instruction has no effect. TRAP traps so, with cause 0x09 and tval = rs1. RETT returns to tpc
with status.intrap clear, 2 cycles later, where tpc is a 4-aligned address of program SRAM. -/
def Obligations.TrapEntry : Prop :=
  (∀ (th : Thread) (c : Nat) (v : Word) (s : State), (s.th th).intrap = false →
    let t := s.trapEntry th c v
    t = { s with stk := t.stk, log := t.log, cycle := t.cycle } ∧ (s.cycle + 2 ≤ 599 → t.cycle = s.cycle + 2) ∧
    (∀ o : Thread, o ≠ th → t.th o = s.th o) ∧ t.stk = { s.stk with thF := t.stk.thF, thB := t.stk.thB } ∧
    t.th th = { s.th th with tpc := (s.th th).pc, tcause := BitVec.ofNat 32 c, tval := v, intrap := true, pc := (s.th th).tvec } ∧
    t.log = (State.dev s 0x030 3 [match th with | .F => 0 | .B => 1, BitVec.ofNat 32 c, (s.th th).pc, v]).log) ∧
  (∀ (th : Thread) (rs1 : Reg) (s : State), s.Ready th 2 → (s.th th).intrap = false →
    exec (.trap th rs1) s = .next (s.trapEntry th 0x09 (s.gr th rs1)).settle) ∧
  (∀ (th : Thread) (s : State), s.Ready th 2 → (s.th th).tpc.toNat % 4 = 0 → 0x100000 ≤ (s.th th).tpc.toNat → (s.th th).tpc.toNat < 0x140000 →
    exec (.rett th) s = .next ((s.modTh th fun t => { t with intrap := false, pc := t.tpc }).spend 2))

/-- RETT traps with cause 0x03 and tval = tpc where tpc is no 4-aligned address of program SRAM (R77). A trap in a trap, here of TRAP, is a
double trap (R83): in thread B it halts the thread and posts record 0x033; in thread F it ends the slice as a frame overrun: f_dtrap is
set, ovr_consec and ovr_total count, the slice's shadow writes are to be discarded, and records 0x032 and 0x031 are posted; the
registers of both threads keep their values.
The model's own readings in it: notes/assumptions/23.md. -/
def Obligations.ReturnTrapAndDoubleTraps : Prop :=
  (∀ (th : Thread) (s : State), s.Ready th 2 →
    let a := (s.th th).tpc
    ¬ (a.toNat % 4 = 0 ∧ 0x100000 ≤ a.toNat ∧ a.toNat < 0x140000) → exec (.rett th) s = .next (s.trapEntry th 0x03 a).settle) ∧
  (∀ (th : Thread) (rs1 : Reg) (s : State), s.Ready th 2 → (s.th th).intrap = true →
    (th = .B → exec (.trap th rs1) s = .next (State.settle (State.dev { s with stk := { s.stk with b := .halted } } 0x033 7 []))) ∧
    (th = .F → Does (.trap th rs1) s fun t =>
      t = { s with log := t.log, stk := t.stk } ∧ t.stk.fLive = false ∧ t.stk.fDtrap = true ∧ t.stk.fDiscard = true ∧ t.stk.fOver = true ∧
      t.stk.thF = s.stk.thF ∧ t.stk.thB = s.stk.thB ∧ t.stk.ovrConsec.toNat = min 255 (s.stk.ovrConsec.toNat + 1) ∧
      t.stk.ovrTotal.toNat = min 65535 (s.stk.ovrTotal.toNat + 1) ∧
      t.log = (State.settle (State.dev (State.dev { s with stk := t.stk } 0x032 6 [s.stk.thF.tcause, 0x09, s.stk.thF.tpc])
        0x031 5 [s.stk.thF.pc, t.stk.ovrConsec.setWidth 32])).log))

/-- RDSR gives the special register of its index, in 1 cycle, and changes nothing but rd, the program counter and the cycle (R64). WRSR writes tvec, tpc and, by thread B, fentry with bits [1:0] 0, and fstat's six flags; a write of a read-only register traps with
cause 0x06 and tval = its index, a write of fentry by thread F with cause 0x02; RDSR and WRSR with an index above 10 trap with cause
0x01 (R64, R65, R81). A new fentry takes effect at F's next wake: writing it moves no program counter of F, and a slice starts there at the
strobe. -/
def Obligations.SpecialRegisters : Prop :=
  (∀ (th : Thread) (rd : Reg) (sr : BitVec 5) (s : State), s.Ready th 1 →
    let t := s.th th
    let f := th = .F
    let b (x : Bool) (n : Nat) : Word := if x then BitVec.ofNat 32 (2 ^ n) else 0
    let goes (n : BitVec 5) (v : Word) : Prop := sr = n → exec (.rdsr th rd sr) s = .next ((s.setGr th rd v).done th 1)
    goes 0 (if f then 0 else 1) ∧ goes 1 (BitVec.ofNat 32 s.cycle) ∧ goes 2 (s.time.tick.setWidth 32) ∧
    goes 3 (b t.intrap 0 ||| (if f then b s.stk.sf 1 ||| b s.stk.povr 2 else 0)) ∧
    goes 4 t.tvec ∧ goes 5 t.tpc ∧ goes 6 t.tcause ∧ goes 7 t.tval ∧ goes 8 s.stk.fentry ∧ goes 9 (t.fstat.setWidth 32) ∧ goes 10 (s.stk.evpend.setWidth 32)) ∧
  (∀ (th : Thread) (rd rs1 : Reg) (sr : BitVec 5) (s : State), s.Ready th 1 →
    let v := s.gr th rs1
    let al := v &&& 0xFFFFFFFC
    (sr = 4 → exec (.wrsr th sr rs1) s = .next ((s.modTh th fun t => { t with tvec := al }).done th 1)) ∧
    (sr = 5 → exec (.wrsr th sr rs1) s = .next ((s.modTh th fun t => { t with tpc := al }).done th 1)) ∧
    (sr = 9 → exec (.wrsr th sr rs1) s = .next ((s.modTh th fun t => { t with fstat := v.setWidth 6 }).done th 1)) ∧
    (sr = 8 → th = .B → exec (.wrsr th sr rs1) s = .next (State.done { s with stk := { s.stk with fentry := al } } th 1)) ∧
    (sr = 8 → th = .F → s.Ready th 2 → ∀ w, encode (.wrsr th sr rs1) = some w → exec (.wrsr th sr rs1) s = .next (s.trapEntry th 0x02 w).settle) ∧
    (sr ∈ [0, 1, 2, 3, 6, 7, 10] → s.Ready th 2 → exec (.wrsr th sr rs1) s = .next (s.trapEntry th 0x06 (sr.setWidth 32)).settle) ∧
    (11 ≤ sr.toNat → s.Ready th 2 → (∀ w, encode (.wrsr th sr rs1) = some w → exec (.wrsr th sr rs1) s = .next (s.trapEntry th 0x01 w).settle) ∧
      (∀ w, encode (.rdsr th rd sr) = some w → exec (.rdsr th rd sr) s = .next (s.trapEntry th 0x01 w).settle))) ∧
  (∀ s : State, s.time.strobeDue = true → s.cycle ≤ 240 → (s.reg 0x60).getLsbD 0 = true → s.stk.fHalted = false → s.stokerOn = true → s.pr.resumeAt = none →
    Does .outputStrobe s fun t => t.stk.fLive = true ∧ t.stk.thF.pc = s.stk.fentry)

/-- YIELD ends thread F's slice and sets ovr_consec to 0; TWAIT makes thread B wait for the n-th tick, 0 acting as 1; WDKICK loads the
watchdog with its period, 0 acting as 1; each ends in 1 cycle and changes nothing else. In the other thread each traps with cause 0x02
and tval = its word (R59, R77, R85, R89).
The model's own readings in it: notes/assumptions/4.md, 24.md. -/
def Obligations.ThreadInstructions : Prop :=
  ∀ (rs1 : Reg) (s : State),
    let n := (s.gr .B rs1).toNat % 65536
    (s.Ready .F 1 → exec (.yield .F) s = .next (State.done { s with stk := { s.stk with fLive := false, ovrConsec := 0 } } .F 1)) ∧
    (s.Ready .B 1 → exec (.twait .B rs1) s = .next (State.done { s with stk := { s.stk with b := .twait (s.now + max 1 n) } } .B 1)) ∧
    (s.Ready .B 1 → exec (.wdkick .B) s =
      .next (State.done { s with stk := { s.stk with wdogCnt := max 1 ((s.reg 0x68).toNat % 256) } } .B 1)) ∧
    (s.Ready .B 2 → exec (.yield .B) s = .next (s.trapEntry .B 0x02 0xC0000000).settle) ∧
    (s.Ready .F 2 → exec (.wdkick .F) s = .next (s.trapEntry .F 0x02 0xC0000007).settle ∧
      (∀ w, encode (.twait .F rs1) = some w → exec (.twait .F rs1) s = .next (s.trapEntry .F 0x02 w).settle))

/-- EWAIT takes the masked pending events into rd and clears them, or waits; a mask of 0 or with bits above 11 traps with cause 0x22,
thread F with 0x02. An event that arises in the cycle of an EWAIT stays pending. A wait ends by EWAIT_WAKE once a masked event is
pending and B may run, taking into rd those from before the cycle, or else those of the cycle; TWAIT_WAKE ends a TWAIT from its tick
on (R77, R80).
The model's own readings in it: notes/assumptions/4.md, 11.md, 24.md. -/
def Obligations.EventWaits : Prop :=
  ∀ (rd rs1 : Reg) (s : State),
    let v := s.gr .B rs1
    let m : BitVec 12 := v.setWidth 12
    let nowAt := (s.now, s.cycle)
    let before := if s.stk.evAt = nowAt then s.stk.evWas else s.stk.evpend
    let fresh := if s.stk.evAt = nowAt then s.stk.evNew else 0
    let got := before &&& m
    (s.Ready .B 1 → m ≠ 0 → v.toNat < 4096 → got ≠ 0 → exec (.ewait .B rd rs1) s =
      .next ((State.setGr { s with stk := { s.stk with evpend := (s.stk.evpend &&& ~~~ got) ||| fresh, evWas := s.stk.evWas &&& ~~~ got } } .B rd
        (got.setWidth 32)).done .B 1)) ∧
    (s.Ready .B 1 → m ≠ 0 → v.toNat < 4096 → got = 0 → exec (.ewait .B rd rs1) s =
      .next (State.done { s with stk := { s.stk with b := .ewait rd m } } .B 1)) ∧
    (s.Ready .B 2 → m = 0 ∨ 4096 ≤ v.toNat → exec (.ewait .B rd rs1) s = .next (s.trapEntry .B 0x22 v).settle) ∧
    (s.Ready .F 2 → ∀ w, encode (.ewait .F rd rs1) = some w → exec (.ewait .F rd rs1) s = .next (s.trapEntry .F 0x02 w).settle) ∧
    (∀ q : BitVec 12, s.log.posted = [] → s.log.held = [] → s.stk.b = .ewait rd q → s.stokerOn = true → s.stk.bGated = false →
      s.stk.fLive = false →
      (before &&& q ≠ 0 → exec .ewaitWake s = .next (State.setGr { s with stk := { s.stk with
        b := .running, evpend := (s.stk.evpend &&& ~~~ (before &&& q)) ||| fresh, evWas := s.stk.evWas &&& ~~~ (before &&& q) } } .B rd
          ((before &&& q).setWidth 32))) ∧
      (before &&& q = 0 → s.stk.evpend &&& q ≠ 0 → exec .ewaitWake s = .next (State.setGr { s with stk := { s.stk with
        b := .running, evpend := s.stk.evpend &&& ~~~ (s.stk.evpend &&& q), evNew := s.stk.evNew &&& ~~~ (s.stk.evpend &&& q) } } .B rd
          ((s.stk.evpend &&& q).setWidth 32)))) ∧
    (∀ t : Nat, s.log.posted = [] → s.log.held = [] → s.stk.b = .twait t → t ≤ s.now → s.stokerOn = true → s.stk.bGated = false →
      exec .twaitWake s = .next { s with stk := { s.stk with b := .running } })

/-- FRAME_OVERRUN with a live slice: F is preempted at cycle 540, ovr_consec and ovr_total count up, its shadow writes of the tick are to
be discarded and its next wake reads povr; the registers of both threads keep their values. Where ovr_consec reaches ovr_limit (0
acting as 1), the safe state is taken: safe is set and F is halted (R58, R60, R85, R86). A paired active then holds its outputs from
the next strobe on and releases its damper line (R88); any other controller takes safe_action (R87): the freeze; the soft stop, due at the
commit of the tick, at which every running rail enters SOFT_STOP, or OFF, and every rail is inhibited; or the hard stop, which at cycle 540 stops every
phase, every rail being OFF and inhibited with cause 6. The watchdog: WATCHDOG_START sets en and, where en was 0, the period, and loads the counter with the period in force, 0 acting as 1;
WDOG_EXPIRED, when it is due, sets wdog_exp and takes the safe state, thread F halted (R89, R90, the SYS_WDOG table).
The model's own readings in it: notes/assumptions/1.md, 4.md, 17.md. -/
def Obligations.OverrunsAndWatchdog : Prop :=
  let action (s : State) := (s.reg 0x60).toNat / 256 % 4
  let frozen (s t : State) : Prop :=
    t.fbx.freezeFrom = some (match s.fbx.freezeFrom with | some k => min k (s.now + 1) | none => s.now + 1)
  let stopped (t : State) : Prop := t.stk.hardDue = false ∧ (∀ n : Fin 48, t.phs.ph[n].sw = false) ∧
    ∀ g : Fin 16, t.phs.rail[g].state = .off ∧ t.phs.rail[g].inhibit = true ∧ t.phs.rail[g].cause = 6
  let acts (s t : State) : Prop :=
    if s.pr.role = .active then frozen s t ∧ t.pr.role = .failed ∧ t.damperOut = false ∧ t.phs = s.phs
    else if action s = 0 then frozen s t ∧ t.phs = s.phs
    else if action s = 1 then t.stk.softDue = true ∧ t.phs = s.phs
    else t.fbx.freezeFrom = s.fbx.freezeFrom
  (∀ s : State, s.stk.fLive = true → s.time.strobeDue = false →
    let n := min 255 (s.stk.ovrConsec.toNat + 1)
    let lim := max 1 ((s.reg 0x60).toNat / 65536 % 256)
    Does .frameOverrun s fun t =>
      t.stk.fLive = false ∧ t.stk.fOver = true ∧ t.stk.fDiscard = true ∧ t.stk.ovrConsec.toNat = n ∧
      t.stk.ovrTotal.toNat = min 65535 (s.stk.ovrTotal.toNat + 1) ∧ t.cycle = max s.cycle 540 ∧
      t.stk.thF = s.stk.thF ∧ t.stk.thB = s.stk.thB ∧ t.mem = s.mem ∧ t.regs = s.regs ∧
      (lim ≤ n → t.stk.safe = true ∧ (s.stk.safe = false → t.stk.fHalted = true)) ∧
      (n < lim → s.stk.limitDue = false → t.stk.safe = s.stk.safe) ∧
      (lim ≤ n → s.stk.safe = false → s.stk.hardDue = false → acts s t ∧ (s.pr.role ≠ .active → 2 ≤ action s → stopped t))) ∧
  (∀ s : State, s.stk.hardDue = true → s.time.strobeDue = false → Does .frameOverrun s stopped) ∧
  (∀ s : State, s.stk.softDue = true → s.time.commitDue = true → Does .shadowCommit s fun t =>
    t.stk.softDue = false ∧ ∀ g : Fin 16, t.phs.rail[g].inhibit = true ∧
      (s.phs.rail[g].state ∈ [.softStart, .run, .burst] → t.phs.rail[g].state ∈ [.softStop, .off])) ∧
  (∀ (ini : Initiator) (period : Byte) (s : State), Regs.wf s.regs = true →
    (Does (.watchdogStart ini period) s fun t =>
      let p : Byte := if (s.reg 0x68).getLsbD 31 then (s.reg 0x68).setWidth 8 else period
      t.reg 0x68 = 0x80000000 ||| p.setWidth 32 ∧ t.stk = { s.stk with wdogCnt := max 1 p.toNat } ∧ t.mem = s.mem ∧
      ∀ a, a ≠ 0x68 → t.reg a = s.reg a) ∧
    (s.stk.wdogDue = true → Does .wdogExpired s fun t =>
      t.stk.wdogExp = true ∧ t.stk.wdogDue = false ∧ t.stk.safe = true ∧ (s.stk.safe = false → t.stk.fHalted = true) ∧
      t.stk.thF = s.stk.thF ∧ t.stk.thB = s.stk.thB ∧ t.mem = s.mem ∧ t.regs = s.regs ∧
      (s.stk.safe = false → acts s t ∧ t.phs = s.phs ∧ (s.pr.role ≠ .active → 2 ≤ action s → t.stk.hardDue = true))))


/-! ### Unit instructions (R78, R79) -/

/-- TSTEP steps machine j, named by rs1, within its budget, imm16 held between 8 and 255 (R79, R104-R107). With no table installed or
the machine faulted, rd reads the state and bit 10, in 6 cycles. Else the transitions of the state are searched in table order: none
holds: rd is the state; one holds: its actions and the entry actions of the target are done, the events tested true are taken, the
machine is in the target state, bit 8. A word of the header, of a state, term or action record, or of what a term or an action reads
that is uncorrectable: the machine faults, record 0x042 names machine, state and record, bit 10; an address that names no register, and
a write that the target refuses, trap, the step changing nothing. A step that needs more cycles than the budget takes the budget,
changes nothing but what its reads count, and sets bit 9. Thread B's step waits where the mirror's queue has no room for its records.
A machine number above 63 traps with cause 0x22.
The model's own readings in it: notes/assumptions/4.md, 51.md, 52.md. -/
def Obligations.SequencerSteps : Prop :=
  ∀ (th : Thread) (rd rs1 : Reg) (imm : BitVec 16) (s : State),
    let v := s.gr th rs1
    let i := Instr.tstep th rd rs1 imm
    let budget := max 8 (min 255 imm.toNat)
    let word (n : Nat) (b : Word) : Word := BitVec.ofNat 32 n ||| b
    (64 ≤ v.toNat → s.Ready th 2 → Traps i s th 0x22 v) ∧
    ∀ j : Fin 64, v.toNat = j.val →
      let st := s.seq.mach[j].state.toNat
      (s.table 1 j.val = none ∨ s.seq.mach[j].fault = true → s.Ready th 6 → Ends i s th 6 (s.setGr th rd (word st 0x400))) ∧
      ∀ t : Tbl, s.table 1 j.val = some t → s.seq.mach[j].fault = false →
        let tr := t.addr + 24 + 8 * (s.byte (t.addr + 16)).toNat
        let ac := tr + 24 * s.h16 (t.addr + 18)
        let rec_ (n : Nat) := t.addr + 24 + 8 * n
        let who := iniWord (iniTh th)
        let head := s.readAll who [t.addr + 16, t.addr + 20, rec_ st, rec_ st + 4]
        let faulted (u : State) (k : Nat) : State :=
          State.setGr (((u.modMach j fun m => { m with fault := true }).dev 0x042 5 [nw j.val, nw st, nw k]).mirSeq (iniTh th) j) th rd (word st 0x400)
        let waits (t : State) : Prop := th = .B ∧ s.pr.queue ≠ [] ∧ 64 < t.pr.queue.length
        let ends (c : Nat) (t : State) : Prop := (waits t → Gives i s s) ∧ (¬ waits t → Ends i s th c t)
        let stops (c : Nat) (u : State) (k : Nat) (e : StepErr) : Prop := (e = .bad → ends c (faulted u k)) ∧
          ∀ cause x, e = .trap cause x → exec i s = finish (u.trapEntry th cause x)
        let late (u : State) : Prop := s.Ready th budget → Ends i s th budget (u.setGr th rd (word st 0x200))
        let found := State.search th j tr budget (s.byte (rec_ st + 2)).toNat (s.h16 (rec_ st)) 6 head.1
        (head.2 = true → s.Ready th 6 → stops 6 head.1 0 .bad) ∧ (head.2 = false →
        (∀ u c, found = .none u c → s.Ready th c → Ends i s th c (u.setGr th rd (word st 0))) ∧
        (∀ u, found = .late u → late u) ∧
        (∀ u k e c, found = .fault u k e c → s.Ready th (max 2 c) → stops c u k e) ∧
        (∀ u k ev c0, found = .taken u k ev c0 →
          let tgt := (s.byte (tr + 24 * k + 20)).toNat
          let aim := u.readAll who [tr + 24 * k + 20, rec_ tgt, rec_ tgt + 4]
          let a1 := State.actions th j ac budget (s.byte (tr + 24 * k + 21)).toNat (s.h16 (tr + 24 * k + 22)) (c0 + 1) aim.1
          let a2 (c : Nat) := State.actions th j ac budget (s.byte (rec_ tgt + 6)).toNat (s.h16 (rec_ tgt + 4)) c a1.s
          (budget < c0 + 1 → late u) ∧ (c0 + 1 ≤ budget →
            (aim.2 = true → s.Ready th (c0 + 1) → stops (c0 + 1) aim.1 k .bad) ∧ (aim.2 = false →
              (a1.late = true → late a1.s) ∧ (a1.late = false →
                (∀ r e, a1.res = .error (r, e) → s.Ready th (c0 + 1) → stops (c0 + 1) a1.s r e) ∧
                (∀ l1 c1, a1.res = .ok (l1, c1) → ((a2 c1).late = true → late (a2 c1).s) ∧ ((a2 c1).late = false →
                  (∀ r e, (a2 c1).res = .error (r, e) → s.Ready th c1 → stops c1 (a2 c1).s r e) ∧
                  (∀ l2 c2, (a2 c1).res = .ok (l2, c2) → s.Ready th c2 →
                    let o := (l1 ++ l2).foldl (State.applyAct th)
                      { s := (a2 c1).s.modMach j fun m => { m with ev := m.ev &&& ~~~ ev, state := BitVec.ofNat 5 tgt } }
                    let t := (o.s.mirSeq (iniTh th) j).setGr th rd (word tgt 0x100)
                    (∀ cause x, o.trap = some (cause, x) → exec i s = finish ((a2 c1).s.trapEntry th cause x)) ∧
                    (o.trap = none → o.hold = true → Gives i s s) ∧
                    (o.trap = none → o.hold = false → ends c2 t)))))))))

/-- TCURV, FBR, FBW, FBWP, FBST and FBCLR (R78, R79, R111): the value of an installed curve, or NaN with nv for one that is not
installed, or a trap with cause 0x08 at the first uncorrectable word; the active copy of a descriptor word, its reserved bits 0; a shadow write of one word, or of a word and its complement, answered 0, or refused
with status 1 and SYS_ERR locked for a word that only hardware writes; the context's status word; the request to re-arm a faulted
context. A curve id above 255 or a selector with other bits traps with cause 0x22, an absent context with 0x21.
The model's own readings in it: notes/assumptions/4.md, 20.md, 31.md. -/
def Obligations.FireboxInstructions : Prop :=
  ∀ (th : Thread) (rd rs1 rs2 : Reg) (fd fs1 : FReg) (s : State),
    let v := s.gr th rs2
    let d := s.gr th rs1
    let x : Fin 128 := Fin.ofNat 128 (v.toNat / 256 % 128)
    let w := v.toNat % 32
    let a := 0x14000 + 128 * x.val + 4 * w
    let fits := v &&& 0xFFFF80E0 = 0
    let ok := v &&& 0xFFFF80E0 = 0 ∧ x.val < s.nCtx
    let fp (u : Word × BitVec 6) : State := (s.setFr th fd u.1).modTh th fun t => { t with fstat := t.fstat ||| u.2 }
    (s.Ready th 18 → (∀ t, v.toNat < 256 → s.table 2 v.toNat = some t →
        let x := s.fr th fs1
        let r := s.curveRead (iniWord (iniTh th)) t x
        let bad := (s.curveAddrs t x).find? fun k => sget s.ecc (k - k % 4) == some .uncorr
        ((∀ k ∈ s.curveAddrs t x, sget s.ecc (k - k % 4) = none) → Ends (.tcurv th fd fs1 rs2) s th 18 (fp (s.curveVal t x))) ∧
        (r.2.2 = false → Ends (.tcurv th fd fs1 rs2) s th 18
          ((r.1.setFr th fd r.2.1.1).modTh th fun t => { t with fstat := t.fstat ||| r.2.1.2 })) ∧
        (∀ k, bad = some k → exec (.tcurv th fd fs1 rs2) s = .next (r.1.trapEntry th 0x08 (nw k)).settle)) ∧
      (v.toNat < 256 → s.table 2 v.toNat = none → Ends (.tcurv th fd fs1 rs2) s th 18 (fp (0x7FC00000, 0x10))) ∧
      (256 ≤ v.toNat → Traps (.tcurv th fd fs1 rs2) s th 0x22 v)) ∧
    (s.Ready th 3 → ok → sget s.ecc a = none → Ends (.fbr th rd rs2) s th 3 (s.setGr th rd
      (if (s.info a).kind = .hw then (if w = 24 then s.fbx.ctx[x].traj else s.fbx.ctx[x].acff) else s.reg a &&& (s.descInfo a).mask))) ∧
    (s.Ready th 3 → ok → (s.info a).kind = .par → (s.info a).rwc = 0 → Ends (.fbw th rd rs1 rs2) s th 3
      (State.setGr { s with shadow := s.shadow ++ [{ ini := iniTh th, addr := a, val := d &&& (s.info a).mask }] } th rd 0)) ∧
    (s.Ready th 3 → ok → (s.info a).kind = .hw → Ends (.fbw th rd rs1 rs2) s th 3 ((s.flagErr 29 a).setGr th rd 1)) ∧
    (s.Ready th 3 → ok → (s.info a).rwc ≠ 0 →
      Ends (.fbw th rd rs1 rs2) s th 3 ((s.pairWord (iniTh th) a (s.info a).rwc (s.info a).widx d).setGr th rd 0)) ∧
    (s.Ready th 4 → ok → w ≤ 30 → (s.info a).kind ≠ .hw → (s.info (a + 4)).kind ≠ .hw → Ends (.fbwp th rd rs1 rs2) s th 4
      (((s.wrReg (iniTh th) a d 0xFFFFFFFF).wrReg (iniTh th) (a + 4) (~~~ d) 0xFFFFFFFF).setGr th rd 0)) ∧
    (s.Ready th 4 → ok → w ≤ 30 → (s.info a).rwc = 2 → (s.info a).widx = 0 →
      let u := if s.openPairs.any (fun p => p.base = a) then s.flagErr 30 a else s
      Ends (.fbwp th rd rs1 rs2) s th 4 (State.setGr
        { u with openPairs := s.openPairs.filter fun p => p.base ≠ a,
                 shadow := s.shadow ++ [{ ini := iniTh th, addr := a, val := d }, { ini := iniTh th, addr := a + 4, val := ~~~ d }] } th rd 0)) ∧
    (s.Ready th 4 → ok → w ≤ 30 → (s.info a).kind = .hw → Ends (.fbwp th rd rs1 rs2) s th 4 ((s.flagErr 29 a).setGr th rd 1)) ∧
    (s.Ready th 4 → ok → w ≤ 30 → (s.info a).kind ≠ .hw → (s.info (a + 4)).kind = .hw →
      Ends (.fbwp th rd rs1 rs2) s th 4 ((s.flagErr 29 (a + 4)).setGr th rd 1)) ∧
    (s.Ready th 4 → (¬ fits → Traps (.fbwp th rd rs1 rs2) s th 0x22 v) ∧
      (fits → w ≤ 30 → s.nCtx ≤ x.val → Traps (.fbwp th rd rs1 rs2) s th 0x21 v)) ∧
    (s.Ready th 4 → ok → 30 < w → Traps (.fbwp th rd rs1 rs2) s th 0x22 v) ∧
    (s.Ready th 3 → ok → Ends (.fbst th rd rs2) s th 3 (s.setGr th rd s.fbx.ctx[x].shown)) ∧
    (s.Ready th 3 → ok → Ends (.fbclr th rd rs2) s th 3 (State.setGr (if s.fbx.ctx[x].fault then
      s.modCtx x fun c => { c with rearm := c.rearm ++ [iniTh th] } else s) th rd 0)) ∧
    (s.Ready th 3 → ∀ i ∈ [Instr.fbr th rd rs2, .fbw th rd rs1 rs2, .fbst th rd rs2, .fbclr th rd rs2],
      (¬ fits → Traps i s th 0x22 v) ∧ (fits → s.nCtx ≤ x.val → Traps i s th 0x21 v))

/-- EMINT, EBURN, EGRANT, EREVK and EXFER, of 4 cycles, and EQRY, of 2 (R78, R215, R221, R226): one that takes effect answers 0, moves
the counters of the pool with their complements, counts seq, posts its record and, in an active, makes an entry of the mirror; the
status of one that is refused, which changes nothing else, but that EGRANT first finds a lease that has run out expired (R220, 18 R385): 1 frozen or insufficient, 2 not open or no route, 3 zero amount (for EXFER
4) or, for EXFER, no free record. EQRY gives pool_free. An operation that the tick does not allow answers 1 (17 R355, R367; 01 R37).
The model's own readings in it: notes/assumptions/4.md, 12.md, 25.md, 26.md, 28.md. -/
def Obligations.EmberInstructions : Prop :=
  ∀ (th : Thread) (rd rs1 rs2 : Reg) (s : State),
    let w := s.gr th rs1
    let v := s.gr th rs2
    let e := s.emb
    let h : Fin 256 := Fin.ofNat 256 v.toNat
    let reason : Word := if v = 2 ∨ v = 6 then 0 else v
    let answers (i : Instr) (st : Word) : Prop := Ends i s th 4 (s.setGr th rd st)
    let done (i : Instr) (op x : Byte) (a : Word) (u : State) : Prop :=
      Ends i s th 4 ((u.embEntry op x (match th with | .F => 0 | .B => 1) a w).setGr th rd 0)
    let op (e' : EmbSt) : EmbSt := { e' with seq := e'.seq + 1, ops := e'.ops + 1, uncovered := e'.uncovered && e'.debt.v != 0 }
    let a := if w.toNat ≤ e.debt.v.toNat then w else e.debt.v
    -- EGRANT finds a lease that has run out expired
    let d := s.leaseExp h
    let k := d.emb
    let grant (st : Word) : Prop := Ends (.egrant th rd rs1 rs2) s th 4 (d.setGr th rd st)
    let five := [Instr.emint th rd rs1 rs2, .eburn th rd rs1 rs2, .egrant th rd rs1 rs2, .erevk th rd rs1 rs2, .exfer th rd rs1 rs2]
    (s.Ready th 2 → Ends (.eqry th rd) s th 2 (s.setGr th rd e.free.v)) ∧ (s.Ready th 4 →
    (∀ i ∈ five.take 4, 256 ≤ v.toNat → Traps i s th 0x22 v) ∧ (2 ^ 14 ≤ v.toNat → Traps (.exfer th rd rs1 rs2) s th 0x22 v) ∧
    ((∀ l, e.hold[h].lease = some l → s.now < l) → d = s) ∧
    (s.embAdmit = false → (v.toNat < 256 → ∀ i ∈ five, answers i 1) ∧ (v.toNat < 2 ^ 14 → answers (.exfer th rd rs1 rs2) 1)) ∧
    (e.frozen = true → (v.toNat < 256 → ∀ i ∈ five, i ≠ .egrant th rd rs1 rs2 → answers i 1) ∧ (v.toNat < 2 ^ 14 → answers (.exfer th rd rs1 rs2) 1)) ∧
    (v.toNat < 256 → s.embAdmit = true → e.frozen = true → grant 1) ∧
    (v.toNat < 256 → s.embAdmit = true → e.frozen = false →
      (w = 0 → answers (.emint th rd rs1 rs2) 3 ∧ answers (.eburn th rd rs1 rs2) 3) ∧
      (s.hOpen h = false → grant 2 ∧ answers (.erevk th rd rs1 rs2) 2) ∧
      (s.hOpen h = true → w = 0 → grant 3 ∧ answers (.erevk th rd rs1 rs2) 3) ∧
      (w ≠ 0 → 2 ^ 32 ≤ e.total.v.toNat + (w - a).toNat → answers (.emint th rd rs1 rs2) 1) ∧
      (w ≠ 0 → e.total.v.toNat + (w - a).toNat < 2 ^ 32 → done (.emint th rd rs1 rs2) 1 0 v (State.dev
        { s with emb := op { e with debt := e.debt.sub a, total := e.total.add (w - a), free := e.free.add (w - a) } }
        0x400 2 [w, reason, a, e.total.v + (w - a)])) ∧
      (w ≠ 0 → e.free.v.toNat < w.toNat → answers (.eburn th rd rs1 rs2) 1 ∧
        (s.hOpen h = true → grant 1)) ∧
      (w ≠ 0 → w.toNat ≤ e.free.v.toNat → done (.eburn th rd rs1 rs2) 2 0 v (State.dev
        { s with emb := op { e with free := e.free.sub w, total := e.total.sub w } } 0x401 3 [w, reason, 0, e.total.v - w])) ∧
      (s.hOpen h = true → w ≠ 0 → w.toNat ≤ k.free.v.toNat → k.debt.v = 0 →
        (∀ c, s.thmCap (s.hGroup h) = some c → k.hold[h].grant.v.toNat + w.toNat ≤ c.toNat) →
        done (.egrant th rd rs1 rs2) 3 (v.setWidth 8) 0 (((State.dev
          { d with emb := { op { k with free := k.free.sub w, granted := k.granted.add w } with
            hold := k.hold.set h { k.hold[h] with grant := k.hold[h].grant.add w } } }
          0x402 0 [v, w, k.hold[h].grant.v + w]).openLease h).limitChanged h true)) ∧
      (s.hOpen h = true → w ≠ 0 → (k.debt.v ≠ 0 ∨ ∃ c, s.thmCap (s.hGroup h) = some c ∧ c.toNat < k.hold[h].grant.v.toNat + w.toNat) → grant 1) ∧
      (s.hOpen h = true → w ≠ 0 → e.hold[h].grant.v.toNat < w.toNat → answers (.erevk th rd rs1 rs2) 1) ∧
      (s.hOpen h = true → w ≠ 0 → w.toNat ≤ e.hold[h].grant.v.toNat →
        done (.erevk th rd rs1 rs2) 4 (v.setWidth 8) 0 (s.revoke h w 0 false))) ∧
    (v.toNat < 2 ^ 14 → s.embAdmit = true → e.frozen = false →
      (w = 0 → answers (.exfer th rd rs1 rs2) 4) ∧ (w ≠ 0 → e.free.v.toNat < w.toNat → answers (.exfer th rd rs1 rs2) 1) ∧
      (w ≠ 0 → w.toNat ≤ e.free.v.toNat →
      (s.anyHot = true → (s.reg 0x40018).toNat < w.toNat → answers (.exfer th rd rs1 rs2) 1) ∧ (s.anyHot = false ∨ w.toNat ≤ (s.reg 0x40018).toNat →
      let node : BitVec 14 := v.setWidth 14
      (s.route node = none → answers (.exfer th rd rs1 rs2) 2) ∧
      ∀ p, s.route node = some p →
        ((∀ i : Fin 32, e.xfer[i].dir ≠ 0) → answers (.exfer th rd rs1 rs2) 3) ∧
        ∀ i : Fin 32, e.xfer[i].dir = 0 → (∀ k : Fin 32, k < i → e.xfer[k].dir ≠ 0) →
          let x : XferSt := { dir := 1, st := 1, port := BitVec.ofNat 2 p.val, node := node, xid := e.xid, w := w,
                              opened := s.time.tick.setWidth 32, retryAt := s.now + s.tRetry,
                              offerEnd := s.now + max 1 ((s.reg 0x60004).toNat % 65536) }
          done (.exfer th rd rs1 rs2) 5 (BitVec.ofNat 8 p.val) v (State.xferMoved (State.reqPush
            { s with emb := { op { e with free := e.free.sub w, transit := e.transit.add w, xid := e.xid + 1 } with xfer := e.xfer.set i x } }
            p (mkMsg 3 1 node.toNat s.node (wBytes e.xid ++ wBytes w))) i x 1)))))

/-- TMEAS, TRES, NVQ, LOGE and NVWR (R78, R79, R235, R287): a measurement is queued and answered 0, or 1 where eight wait; the last
result of a sensor; the pages that wait or are being written; a program record of code 0xB00 or above passes the recorder, rd giving its
sequence number, with bit 16 for a suppressed record, or bit 17 alone for a dropped one; a page write of the 64 bytes at rs2 joins the
queue, or is refused with status 4 for a bad offset, 3 locked, 2 queue full, 1 gated. A memory operand that is not 4-aligned traps with
cause 0x04, one outside data SRAM with 0x05; a sensor or header out of range traps with 0x22.
The model's own readings in it: notes/assumptions/4.md, 35.md, 37.md, 39.md. -/
def Obligations.RecordAndStoreInstructions : Prop :=
  ∀ (th : Thread) (rd rs1 rs2 : Reg) (s : State),
    let h := s.gr th rs1
    let a := s.gr th rs2
    let operand (n : Nat) : Prop := a.toNat % 4 = 0 ∧ 0x200000 ≤ a.toNat ∧ a.toNat + n ≤ 0x280000 ∧
      ∀ k, k < (n + 3) / 4 → sget s.ecc (a.toNat + 4 * k) = none
    let bad (i : Instr) (n : Nat) : Prop := (a.toNat % 4 ≠ 0 → Traps i s th 0x04 a) ∧
      (a.toNat % 4 = 0 → a.toNat < 0x200000 ∨ 0x280000 < a.toNat + n → Traps i s th 0x05 a)
    (s.Ready th 2 →
      (40 ≤ h.toNat → Traps (.tmeas th rd rs1) s th 0x22 h ∧ Traps (.tres th rd rs1) s th 0x22 h) ∧
      (∀ t : Fin 40, h.toNat = t.val →
        (s.thm.queue.length < 8 → Ends (.tmeas th rd rs1) s th 2
          (State.setGr { s with thm := { s.thm with queue := s.thm.queue ++ [t] } } th rd 0)) ∧
        (8 ≤ s.thm.queue.length → Ends (.tmeas th rd rs1) s th 2 (s.setGr th rd 1)) ∧
        Ends (.tres th rd rs1) s th 2 (s.setGr th rd (match s.thm.res[t] with | some r => 0x10000 ||| r.setWidth 32 | none => 0))) ∧
      Ends (.nvq th rd) s th 2 (s.setGr th rd (BitVec.ofNat 32 (s.nvm.queue.length + if s.nvm.cur.isSome then 1 else 0)))) ∧
    (let n := h.toNat / 65536 % 256
     let legal := h.getLsbD 15 = false ∧ h.toNat < 2 ^ 24 ∧ 0xB00 ≤ h.toNat % 4096
     s.Ready th (4 + n) →
      (¬ legal → Traps (.loge th rd rs1 rs2) s th 0x22 h) ∧ (legal → bad (.loge th rd rs1 rs2) (4 * n)) ∧
      (legal → operand (4 * n) →
        let p : Posted := { org := orgTh th, code := h.setWidth 12, sev := (h >>> 12).setWidth 3, stamp := s.time.tick,
                            payloads := [(List.range n).map fun k => s.word (a.toNat + 4 * k)] }
        Ends (.loge th rd rs1 rs2) s th (4 + n) ((s.offerRec p).1.setGr th rd (match (s.offerRec p).2 with
          | .admitted q => q.setWidth 32
          | .suppressed q => 0x10000 ||| q.setWidth 32
          | .dropped => 0x20000)))) ∧
    (s.Ready th 18 →
      let page := h.toNat / 64
      let first := s.abAt page false
      let need := match first with | some (i, _) => 10 * s.nvm.ab[i].pages + 2 | none => 10
      let good := h.toNat % 64 = 0 ∧ h.toNat < 0x200000
      bad (.nvwr th rd rs1 rs2) 64 ∧
      (operand 64 →
        (¬ good → Ends (.nvwr th rd rs1 rs2) s th 18 (s.setGr th rd 4)) ∧
        (good → s.nvLocked (iniTh th) page = true → Ends (.nvwr th rd rs1 rs2) s th 18 (s.setGr th rd 3)) ∧
        (good → s.nvLocked (iniTh th) page = false → 16 ≤ s.nvPages → Ends (.nvwr th rd rs1 rs2) s th 18 (s.setGr th rd 2)) ∧
        (good → s.nvLocked (iniTh th) page = false → s.nvPages < 16 → s.pins.pfail = true ∨ s.nvm.ng < s.gQ + need →
          Ends (.nvwr th rd rs1 rs2) s th 18 (State.setGr (if s.nvm.gateOk then
            State.dev { s with nvm := { s.nvm with gateOk := false } } 0x703 4 [nw s.nvm.ng, nw s.gQ, nw need, 0] else s) th rd 1)) ∧
        (good → s.nvLocked (iniTh th) page = false → s.nvPages < 16 → s.pins.pfail = false → s.gQ + need ≤ s.nvm.ng →
          Ends (.nvwr th rd rs1 rs2) s th 18 (State.setGr { s with nvm := { s.nvm with gateOk := true, queue := s.nvm.queue ++
            [{ src := (match th with | .F => .thF | .B => .thB), off := h.toNat, data := s.bytes a.toNat 64, abFirst := first,
               abLast := (s.abAt page true).map (·.1) }] } } th rd 0))))

/-- SSEND, SRECV and PMIR (R78, R79, R335, R338, R356): SSEND queues the 16-byte message at rs1, its source and CRC filled in, on port
rs2: 0 queued, 1 no room in its class's share of the queue, 2 port not UP, 3 a class other than CTRL and LOG; a CTRL message of a type
below 0x40 traps with cause 0x22. SRECV copies the oldest waiting message of a class to data SRAM and frees its slot, or answers 1.
PMIR adds 1 to 64 bytes to the mirror frame of a paired active: 2 not paired, 1 beyond the tick's budget; thread B waits while the
queue is full, thread F's record is lost with record 0xA02. Operands out of range trap with 0x22, an absent port with 0x21, a bad address with 0x04 or 0x05, a protected destination
with 0x06.
The model's own readings in it: notes/assumptions/4.md, 45.md, 52.md. -/
def Obligations.MessageInstructions : Prop :=
  ∀ (th : Thread) (rd rs1 rs2 : Reg) (s : State),
    let a := s.gr th rs1
    let v := s.gr th rs2
    let operand (n : Nat) : Prop := a.toNat % 4 = 0 ∧ 0x200000 ≤ a.toNat ∧ a.toNat + n ≤ 0x280000
    let clean (n : Nat) : Prop := ∀ k, k < (n + 3) / 4 → sget s.ecc (a.toNat + 4 * k) = none
    let bad (i : Instr) (n : Nat) : Prop := (a.toNat % 4 ≠ 0 → Traps i s th 0x04 a) ∧
      (a.toNat % 4 = 0 → a.toNat < 0x200000 ∨ 0x280000 < a.toNat + n → Traps i s th 0x05 a)
    (s.Ready th 6 → let i := Instr.ssend th rd rs1 rs2
      (4 ≤ v.toNat → Traps i s th 0x22 v) ∧ (v.toNat < 4 → s.nPorts ≤ v.toNat → Traps i s th 0x21 v) ∧
      ∀ p : Fin 4, v.toNat = p.val → p.val < s.nPorts → bad i 16 ∧ (operand 16 → clean 16 →
        let cls := s.byte a.toNat
        let typ := s.byte (a.toNat + 1)
        let c : Fin 4 := if cls = 4 then 3 else 0
        let sent := cls = 4 ∨ cls = 1 ∧ 0x40 ≤ typ.toNat
        let live := s.stkLive = true ∧ s.portUp p = true
        (cls = 1 → typ.toNat < 0x40 → Traps i s th 0x22 a) ∧ (cls ≠ 1 → cls ≠ 4 → Ends i s th 6 (s.setGr th rd 3)) ∧
        (sent → ¬ live → Ends i s th 6 (s.setGr th rd 2)) ∧
        (sent → live → partSize c ≤ s.link.port[p].txq[c].length → Ends i s th 6 (s.setGr th rd 1)) ∧
        (sent → live → s.link.port[p].txq[c].length < partSize c → Ends i s th 6 (State.setGr (s.stkPush p c
          (mkMsg cls typ (((s.byte (a.toNat + 2)).toNat + 256 * (s.byte (a.toNat + 3)).toNat) % 16384) s.node (s.bytes (a.toNat + 6) 8))) th rd 0)))) ∧
    (s.Ready th 6 → let i := Instr.srecv th rd rs1 rs2
      (2 ≤ v.toNat → Traps i s th 0x22 v) ∧ (v.toNat < 2 → bad i 16) ∧
      (v.toNat < 2 → operand 16 →
        let q := if v = 1 then s.link.log else s.link.ctrl
        (q = [] → Ends i s th 6 (s.setGr th rd 1)) ∧
        (∀ src m ms, q = (src, m) :: ms →
          (s.protHit a.toNat 16 = true → Traps i s th 0x06 a) ∧
          (s.protHit a.toNat 16 = false → Ends i s th 6 (State.setGr { s with
            mem := memPut s.mem a.toNat (leBytes 16 m.toNat), ecc := [0, 4, 8, 12].foldl (fun e k => sput e (a.toNat + k) none) s.ecc,
            link := if v = 1 then { s.link with log := ms } else { s.link with ctrl := ms } } th rd 0))))) ∧
    (s.Ready th (4 + (min 64 v.toNat + 3) / 4) → let i := Instr.pmir th rd rs1 rs2; let c := 4 + (min 64 v.toNat + 3) / 4
      (v.toNat = 0 ∨ 64 < v.toNat → Traps i s th 0x22 v) ∧ (1 ≤ v.toNat → v.toNat ≤ 64 → bad i v.toNat ∧
        (operand v.toNat → clean v.toNat →
          let paired := s.pr.role = .active ∧ s.pr.solo = false
          let fits := s.pr.pmirUsed + v.toNat ≤ (s.reg 0xC0000).toNat / 65536 % 256
          (¬ paired → Ends i s th c (s.setGr th rd 2)) ∧ (paired → ¬ fits → Ends i s th c (s.setGr th rd 1)) ∧
          (paired → fits → s.pr.queue.length < 64 → Ends i s th c (State.setGr { s with pr := { s.pr with
            pmirUsed := s.pr.pmirUsed + v.toNat,
            queue := s.pr.queue ++ [mkRec 0x13 (leBytes 4 a.toNat ++ s.bytes a.toNat v.toNat)] } } th rd 0)) ∧
          (paired → fits → 64 ≤ s.pr.queue.length → th = .B → Gives i s s) ∧
          (paired → fits → 64 ≤ s.pr.queue.length → th = .F → Ends i s th c (State.setGr (State.dev { s with pr := { s.pr with
            pmirUsed := s.pr.pmirUsed + v.toNat, staleTx := true, resyncReq := true } } 0xA02 3 [0x13]) th rd 0)))))

/-! ### The Ember pool (R212-R233) -/

/-- No command breaks the ledger (R212-R215, R221-R231): from any state in which the check of R213 finds nothing (every
counter and every grant and pend with its complement; free + granted + transit + pending = total; the grants and the pends of all
holders adding up to granted and pending) and the unsettled outgoing transfers amount to transit, every instruction, host command,
message, timeout and enforcement event of the pool comes to such a state. In a controller that is no standby, so does every other
command that can move Embers: a phase fault with its burn, the start of the tick with what it admits, the commit with its burns and
its check, the thermal unit, an instruction that stores, a register write of a program or of a host by PMBus, a mapped command or SPI,
an acknowledgement that releases what was withheld, and a swap that is held.
The model's own readings in it: notes/assumptions/25.md, 26.md, 27.md, 28.md. -/
def Obligations.EmberLedgerConserved : Prop :=
  ∀ (s t : State) (th : Thread) (rd rs1 rs2 : Reg) (ini : Initiator) (h : Fin 256) (i : Fin 32) (p : Fin 4) (src : BitVec 14)
    (xid w : Word) (ok : Bool) (err : BitVec 4) (n : Fin 48) (z : Fin 8) (ps : PinSample) (code : BitVec 12) (mean : Int) (fs : FReg)
    (imm : BitVec 16) (k : Fin 3) (bs : List Byte) (cmd : Byte) (data : Option (List Byte)) (pec : Option Byte) (ws : List Word),
    s.PoolSound →
      (∀ c ∈ [Instr.emint th rd rs1 rs2, .eburn th rd rs1 rs2, .egrant th rd rs1 rs2, .erevk th rd rs1 rs2, .exfer th rd rs1 rs2, .eqry th rd,
             .request ini h, .embReturn ini h, .renew ini h, .revokeAck ini h, .embWriteoff ini i, .embLeaseExp h, .revokeDeadline h,
             .embEnforce h, .enforceWriteEnd h ok err, .enforceRetry h, .offer p src xid w, .commit p src xid, .cancel p src xid, .ask p w,
             .accept p src xid w, .reject p src xid w, .embDone p src xid, .xferRetransmit i, .offerTimeout i],
        exec c s = .next t → t.PoolSound) ∧
      (s.pr.role ≠ .syncing → s.pr.role ≠ .synced →
        ∀ c ∈ [Instr.phaseAoc n code, .phaseSenseOpen n, .phaseOpen n, .tickStart ps, .shadowCommit, .thmMeasDone mean ok, .thmGraceExpire z,
               .sw th rs2 rs1 imm, .sh th rs2 rs1 imm, .sb th rs2 rs1 imm, .fsw th fs rs1 imm, .stp th rs2 rs1 imm, .stpd th rs2 rs1 imm,
               .tstep th rd rs1 imm, .registerWrite ini xid w, .hostCommandExec, .pmbusMapCommand k cmd data pec, .write w ws, .spiWriteApply,
               .mirrorAck bs, .pairLinkDown],
          exec c s = .next t → t.PoolSound)

/-- The host's Ember commands on EMB_HCMD (R219-R221) and EMB_XCMD (R231), when the unit admits them. REQUEST records the amount and sets
the holder's bit of EMB_REQMAP; RETURN gives Embers back, debt first; RENEW opens the lease window; REVOKE_ACK completes the pend,
debt first; the status stands in EMB_HRES: 1 frozen or more than granted, 2 not open, 3 zero. A RENEW from the tick in which the
lease ends is late: the grant above the floor is revoked first (18 R385). A write-off closes an open outgoing transfer, and waits for
the next tick where the tick admits no operation (17 R355, R367, R369). In a standby neither changes anything. A store by thread F in an active is refused (17 R355).
The model's own readings in it: notes/assumptions/20.md, 25.md, 26.md. -/
def Obligations.EmberHostCommands : Prop :=
  ∀ (ini : Initiator) (h : Fin 256) (i : Fin 32) (s : State),
    let e := s.emb
    let w := s.reg 0x60050
    let r := e.hold[h]
    let least (a b : Word) : Word := if a.toNat ≤ b.toNat then a else b
    let four := [Instr.request ini h, .embReturn ini h, .renew ini h, .revokeAck ini h]
    let barred := ini = .F ∧ s.pr.role = .active
    let ready := ¬ barred ∧ e.hresBusy = false ∧ s.pr.role ≠ .syncing ∧ s.pr.role ≠ .synced ∧ s.embAdmit = true
    let others (t : State) : Prop := t.emb.xfer = e.xfer ∧ t.emb.frozen = e.frozen ∧ ∀ k : Fin 256, k ≠ h → t.emb.hold[k] = e.hold[k]
    let does (c : Instr) (P : State → Prop) : Prop := Does c s fun t =>
      t = { s with emb := t.emb, stk := t.stk, log := t.log } ∧ others t ∧ t.emb.hres = 0 ∧ t.emb.hresBusy = s.withholds ∧ P t
    let turned (c : Instr) (st : BitVec 4) : Prop := Does c s fun t =>
      t = { s with emb := { e with ops := t.emb.ops, hres := st, hresBusy := false }, log := t.log }
    (barred → (∀ c ∈ four, Gives c s (s.flagErr 29 0x60054)) ∧ Gives (.embWriteoff ini i) s (s.flagErr 29 0x6005C)) ∧
    (¬ barred → e.hresBusy = true ∨ s.pr.role = .syncing ∨ s.pr.role = .synced → ∀ c ∈ four, Gives c s s) ∧
    (¬ barred → e.hresBusy = false → s.pr.role ≠ .syncing → s.pr.role ≠ .synced → s.embAdmit = false →
      Does (.request ini h) s fun t => t.emb.waitHost = some { ini := ini, op := .request, h := h, w := w } ∧ t.emb.hresBusy = true) ∧
    (ready → e.frozen = true → ∀ c ∈ four, turned c 1) ∧
    (ready → e.frozen = false → s.hOpen h = false → ∀ c ∈ four, turned c 2) ∧
    (ready → e.frozen = false → s.hOpen h = true →
      does (.request ini h) (fun t => t.emb.counters = e.counters ∧ t.emb.hold[h] = { r with req := w } ∧
        (∀ k : Fin 8, t.emb.reqmap[k] = if k.val = h.val / 32 then e.reqmap[k] ||| (1 : Word) <<< (h.val % 32) else e.reqmap[k]) ∧
        t.stk = (s.evp 5).stk) ∧
      (w = 0 → turned (.embReturn ini h) 3) ∧ (w ≠ 0 → r.grant.v.toNat < w.toNat → turned (.embReturn ini h) 1) ∧
      (w ≠ 0 → w.toNat ≤ r.grant.v.toNat → let a := least w e.debt.v
        does (.embReturn ini h) fun t => t.emb.counters =
          [e.total.sub a, e.free.add (w - a), e.granted.sub w, e.transit, e.pending, e.debt.sub a] ∧
          t.emb.hold[h].grant = r.grant.sub w ∧ t.emb.hold[h].pend = r.pend ∧ t.emb.seq = e.seq + 1 ∧ t.stk = s.stk) ∧
      (let window := s.reg (0x61004 + 64 * h.val)
       let floor := s.reg (0x61018 + 64 * h.val)
       let above := r.grant.v - floor
       let opened (r' : HolderSt) : HolderSt := if window = 0 then r' else { r' with lease := some (s.now + window.toNat) }
       let late := ∃ l, r.lease = some l ∧ l ≤ s.now
       (¬ late → does (.renew ini h) fun t => t.emb.counters = e.counters ∧ t.stk = s.stk ∧ t.emb.hold[h] = opened r) ∧
       (late → r.grant.v.toNat ≤ floor.toNat → does (.renew ini h) fun t =>
         t.emb.counters = e.counters ∧ t.emb.hold[h] = opened { r with lease := none }) ∧
       (late → floor.toNat < r.grant.v.toNat → does (.renew ini h) fun t => t.emb.counters =
         [e.total, e.free, e.granted.sub above, e.transit, e.pending.add above, e.debt] ∧ t.emb.hold[h].grant = r.grant.sub above ∧
         t.emb.hold[h].pend = r.pend.add above ∧ t.emb.hold[h].leaseExp = true ∧
         t.emb.hold[h].lease = if window = 0 then none else some (s.now + window.toNat))) ∧
      (r.pend.v = 0 → does (.revokeAck ini h) fun t => t.emb.counters = e.counters ∧
        (r.rstate ≠ .ask ∨ s.now < r.deadline → t.emb.hold[h] = r)) ∧
      (r.pend.v ≠ 0 → let p := r.pend.v; let a := least p e.debt.v
        does (.revokeAck ini h) fun t => t.emb.counters =
          [e.total.sub a, e.free.add (p - a), e.granted, e.transit, e.pending.sub p, e.debt.sub a] ∧
          t.emb.hold[h].grant = r.grant ∧ t.emb.hold[h].pend = r.pend.sub p ∧ t.emb.hold[h].rstate = .none ∧ t.emb.seq = e.seq + 1)) ∧
    (let x := e.xfer[i]
     let standby := s.pr.role = .syncing ∨ s.pr.role = .synced
     let free := e.waitReg = [] ∧ s.embAdmit = true
     ¬ barred → (standby → Gives (.embWriteoff ini i) s s) ∧
      (¬ standby → ¬ free → Gives (.embWriteoff ini i) s
        { s with emb := { e with waitReg := e.waitReg ++ [(ini, 0x6005C, 0x80000000 ||| nw i.val, 0xFFFFFFFF)] } }) ∧
      (¬ standby → free → x.dir = 1 → x.st = 1 ∨ x.st = 2 → e.frozen = false → Does (.embWriteoff ini i) s fun t =>
        t = { s with emb := t.emb, stk := (s.evp 5).stk, log := t.log } ∧ t.emb.hold = e.hold ∧
        t.emb.counters = [e.total.sub x.w, e.free, e.granted, e.transit.sub x.w, e.pending, e.debt] ∧ t.emb.xfer = e.xfer.set i {}) ∧
      (¬ standby → free → ¬ (x.dir = 1 ∧ (x.st = 1 ∨ x.st = 2) ∧ e.frozen = false) → Gives (.embWriteoff ini i) s s))

/-- Ember messages on an UP port of a unit that admits them (R227-R229). One that the tick does not admit, a request whose reply finds no
place in EMB_RSP (18 R383), and one behind those that could be admitted, waits in its receive slot, evpend.emb set (03 R80). An OFFER of a known transfer is accepted again; a new one is
rejected with 1 disabled, 2 no record, 3 overflow, or mints its amount, debt first, and is accepted. A COMMIT closes the incoming record
and is answered DONE. A CANCEL is answered ACCEPT or REJECT 4. ASK stands in EMB_ASK. An ACCEPT settles transit, a REJECT returns
it to free, a DONE closes the record. Replies wait for the standby's acknowledgement in a paired active (R233).
The model's own readings in it: notes/assumptions/25.md, 26.md, 45.md. -/
def Obligations.EmberMessages : Prop :=
  ∀ (p : Fin 4) (src : BitVec 14) (xid w : Word) (s : State),
    let e := s.emb
    let m (k : EmbMsg) (x y : Word) (o : BitVec 14) : MsgWait := { kind := k, p := p, src := o, xid := x, w := y }
    let all : List (Instr × MsgWait) := [(.offer p src xid w, m .offer xid w src), (.commit p src xid, m .commit xid 0 src),
      (.cancel p src xid, m .cancel xid 0 src), (.ask p w, m .ask w 0 s.link.port[p].far), (.accept p src xid w, m .accept xid w src),
      (.reject p src xid w, m .reject xid w src), (.embDone p src xid, m .finished xid 0 src)]
    let waits (x : MsgWait) : Prop := s.embAdmit = false ∨ s.msgKept x = true ∨ ∃ y ∈ e.waitMsg, y.answered = false ∨ s.rspRoom y = true
    let room := s.rspRoom (m .offer xid w src) = true
    let heard := s.portUp p = true ∧ s.pr.role ≠ .syncing ∧ s.pr.role ≠ .synced
    let u := s.evp 5
    let runs (c : Instr) (P : State → Prop) : Prop := Does c s fun t =>
      t = { s with emb := t.emb, link := t.link, stk := (s.evp 5).stk, log := t.log } ∧
      t.emb.hold = e.hold ∧ t.emb.ops = e.ops + 1 ∧ P t
    let replies (c : Instr) (goes : Fin 4) (cls : Fin 4) (m : Msg) : State → Prop := fun t =>
      t.link = (u.sendLate goes cls m).link ∧ t.emb.held = (u.sendLate goes cls m).emb.held
    let kept (t : State) : Prop := t.emb.counters = e.counters ∧ t.emb.xfer = e.xfer
    let silent (t : State) : Prop := t.link = s.link ∧ t.emb.held = e.held
    let least (a b : Word) : Word := if a.toNat ≤ b.toNat then a else b
    (¬ heard → ∀ c ∈ all, Gives c.1 s s) ∧
    (heard → ∀ c ∈ all, waits c.2 → Gives c.1 s (State.evp { s with emb := { e with waitMsg := e.waitMsg ++ [c.2] } } 5)) ∧
    (e.waitMsg = [] → s.embAdmit = true → (room → ∀ c ∈ all, ¬ waits c.2) ∧ ∀ c ∈ all.drop 3, ¬ waits c.2) ∧
    (heard → s.embAdmit = true → e.waitMsg = [] →
      runs (.ask p w) (fun t => kept t ∧ silent t ∧ t.emb.ask = e.ask.set p w) ∧
      (e.frozen = true → ∀ c ∈ all, ¬ waits c.2 → runs c.1 fun t => t.emb.counters = e.counters ∧ t.emb.xfer = e.xfer ∧ silent t) ∧
      (e.frozen = false →
        (room → ∀ i, s.findXfer 2 src xid = some i →
          runs (.offer p src xid w) (fun t => kept t ∧ replies (.offer p src xid w) p 1 (s.embRsp src 0x81 xid e.xfer[i].w) t) ∧
          runs (.commit p src xid) (fun t => t.emb.counters = e.counters ∧ t.emb.xfer = e.xfer.set i {} ∧
            replies (.commit p src xid) p 1 (s.embRsp src 0x83 xid 0) t) ∧
          runs (.cancel p src xid) (fun t => kept t ∧ replies (.cancel p src xid) p 1 (s.embRsp src 0x81 xid e.xfer[i].w) t)) ∧
        (room → s.findXfer 2 src xid = none →
          runs (.commit p src xid) (fun t => kept t ∧ replies (.commit p src xid) p 1 (s.embRsp src 0x83 xid 0) t) ∧
          runs (.cancel p src xid) (fun t => kept t ∧ replies (.cancel p src xid) p 1 (s.embRsp src 0x82 xid 4) t) ∧
          (let a := least w e.debt.v
           let free := (fins 32).find? fun i => e.xfer[i].dir == 0
           let on := (s.reg 0x60004).getLsbD 31 = true ∧ (s.reg 0x60004).getLsbD 30 = true
           let no (r : Word) : Prop := runs (.offer p src xid w) fun t => kept t ∧ replies (.offer p src xid w) p 1 (s.embRsp src 0x82 xid r) t
           (¬ on → no 1) ∧ (on → free = none → no 2) ∧
           (∀ i, on → free = some i → 2 ^ 32 ≤ e.total.v.toNat + (w - a).toNat → no 3) ∧
           (∀ i, on → free = some i → e.total.v.toNat + (w - a).toNat < 2 ^ 32 → runs (.offer p src xid w) fun t =>
             t.emb.counters = [e.total.add (w - a), e.free.add (w - a), e.granted, e.transit, e.pending, e.debt.sub a] ∧
             t.emb.xfer = e.xfer.set i { dir := 2, st := 1, port := BitVec.ofNat 2 p.val, node := src, xid := xid, w := w,
                                         opened := s.time.tick.setWidth 32 } ∧
             replies (.offer p src xid w) p 1 (s.embRsp src 0x81 xid w) t))) ∧
        (s.findXfer 1 src xid = none →
          runs (.accept p src xid w) (fun t => kept t ∧ replies (.accept p src xid w) p 2 (s.embReq src 2 xid 0) t) ∧
          runs (.reject p src xid w) (fun t => kept t ∧ silent t) ∧ runs (.embDone p src xid) (fun t => kept t ∧ silent t)) ∧
        (∀ i, s.findXfer 1 src xid = some i → let x := e.xfer[i]; let q : Fin 4 := Fin.ofNat 4 x.port.toNat
          let late := x.st = 1 ∧ x.offerEnd ≤ s.now
          (x.st = 3 → runs (.accept p src xid w) (fun t => kept t ∧ replies (.accept p src xid w) q 2 (s.embReq src 2 xid 0) t) ∧
            runs (.reject p src xid w) (fun t => kept t ∧ silent t) ∧
            runs (.embDone p src xid) (fun t => t.emb.counters = e.counters ∧ t.emb.xfer = e.xfer.set i {} ∧ silent t)) ∧
          (x.st ≠ 3 →
            runs (.accept p src xid w) (fun t =>
              t.emb.counters = [e.total.sub x.w, e.free, e.granted, e.transit.sub x.w, e.pending, e.debt] ∧
              t.emb.xfer = e.xfer.set i { x with st := 3, retryAt := s.now + s.tRetry } ∧
              (¬ late → replies (.accept p src xid w) q 2 (s.embReq src 2 xid 0) t)) ∧
            runs (.reject p src xid w) (fun t =>
              t.emb.counters = [e.total, e.free.add x.w, e.granted, e.transit.sub x.w, e.pending, e.debt] ∧
              t.emb.xfer = e.xfer.set i {} ∧ (¬ late → silent t)) ∧
            runs (.embDone p src xid) (fun t => kept t ∧ silent t)))))

/-- XFER_RETRANSMIT and OFFER_TIMEOUT (R229): from its time on, an open outgoing record sends its message again (OFFER, CANCEL or COMMIT
by its state), unless it still waits to be sent; an offer that has run out becomes a cancellation, whose message it sends. Before
that, and in a halted unit, neither changes anything; either is in the tick's mirror (R234). Revocations (R215, R220-R223). A lease that runs out revokes the grant above the floor: from granted to pending, the holder asked with
its grace, or enforced where it has none; record 0x409. A deadline enforces, or waits where enforcement is off. An enforcement write
starts with the newest allowance while the bus is free and no retry is pending; one that succeeds in ENFORCE completes the pend, debt
first, where it set no more than the grant, and any that succeeds leaves an open holder enforced; one that fails is counted, the eighth sets its failure, and it is retried after the interval unless a REVOKE_ACK has
completed the pend meanwhile. Once no deadline or lease of the pool is due, what waited for the tick is admitted (R214).
The model's own readings in it: notes/assumptions/1.md, 12.md, 26.md, 27.md, 28.md. -/
def Obligations.EmberTimers : Prop :=
  (∀ (i : Fin 32) (s : State), s.log.posted = [] → s.log.held = [] →
    let x := s.emb.xfer[i]
    let p : Fin 4 := Fin.ofNat 4 x.port.toNat
    let again := { x with retryAt := s.now + s.tRetry }
    let msg := if x.st = 1 then s.embReq x.node 1 x.xid x.w else if x.st = 2 then s.embReq x.node 3 x.xid 0 else s.embReq x.node 2 x.xid 0
    (x.dir = 1 → x.retryAt ≤ s.now → s.embHalted = false →
      let u : State := { s with emb := { s.emb with xfer := s.emb.xfer.set i again } }
      Gives (.xferRetransmit i) s (if s.emb.held.any (fun y => y.2 == .send p 2 msg) then u else u.reqPush p msg)) ∧
    (x.dir ≠ 1 ∨ s.now < x.retryAt ∨ s.embHalted = true → exec (.xferRetransmit i) s = .next s) ∧
    (x.dir = 1 → x.st = 1 → x.offerEnd ≤ s.now → s.embHalted = false → s.emb.go = false →
      Gives (.offerTimeout i) s (State.xferMoved (State.reqPush
        { s with emb := { s.emb with xfer := s.emb.xfer.set i { again with st := 2 }, acted := true } } p (s.embReq x.node 3 x.xid 0)) i x 2)) ∧
    (x.dir ≠ 1 ∨ x.st ≠ 1 ∨ s.now < x.offerEnd ∨ s.embHalted = true → s.emb.go = false → exec (.offerTimeout i) s = .next s)) ∧
  (∀ (h : Fin 256) (s : State),
    let e := s.emb
    let r := e.hold[h]
    let cfg := s.reg (0x61000 + 64 * h.val)
    let floor := s.reg (0x61018 + 64 * h.val)
    let above := r.grant.v - floor
    let others (t : State) : Prop := t.emb.xfer = e.xfer ∧ t.emb.frozen = e.frozen ∧ ∀ k : Fin 256, k ≠ h → t.emb.hold[k] = e.hold[k]
    let does (c : Instr) (P : State → Prop) : Prop := Does c s fun t => t = { s with emb := t.emb, log := t.log } ∧ others t ∧ P t
    let w := s.twi[(2 : Fin 3)]
    let retry (err : BitVec 4) : Prop := err = 3 ∧ w.cxLoss < (s.reg 0xA2000).toNat / 65536 % 256
    let ends (c : Instr) (err : BitVec 4) (P : State → Prop) : Prop := Does c s fun t => t = { s with emb := t.emb, log := t.log, twi := t.twi } ∧
      t.twi[(0 : Fin 3)] = s.twi[(0 : Fin 3)] ∧ t.twi[(1 : Fin 3)] = s.twi[(1 : Fin 3)] ∧
      t.twi[(2 : Fin 3)] = { w with
        busAt := s.now
        cxOn := t.twi[(2 : Fin 3)].cxOn, cxLoss := 0, arbLost := w.arbLost || err == 3, pecErr := w.pecErr || err == 5
        stretchTo := w.stretchTo || err == 4, stretchCnt := if err = 4 then satAdd w.stretchCnt 1 else w.stretchCnt } ∧
      (w.cx = none → t.twi[(2 : Fin 3)].cxOn = w.cxOn) ∧ others t ∧ P t
    let none_ := e.go = false ∨ e.waitMsg = [] ∧ e.waitHost = none ∧ e.waitReg = []
    (none_ → ∀ l, r.lease = some l → l ≤ s.now → s.embHalted = false → e.frozen = false → floor.toNat < r.grant.v.toNat →
      Tells (.embLeaseExp h) s 0x409 4 [nw h.val, above] fun t => t = { s with emb := t.emb, log := t.log } ∧ others t ∧ t.emb.counters =
        [e.total, e.free, e.granted.sub above, e.transit, e.pending.add above, e.debt] ∧ t.emb.seq = e.seq + 1 ∧
        t.emb.hold[h].grant = r.grant.sub above ∧ t.emb.hold[h].pend = r.pend.add above ∧ t.emb.hold[h].lease = none ∧
        t.emb.hold[h].leaseExp = true ∧
        (r.rstate = .none → cfg.toNat % 65536 ≠ 0 → t.emb.hold[h].rstate = .ask ∧ t.emb.hold[h].deadline = s.now + cfg.toNat % 65536) ∧
        (r.rstate = .none → cfg.toNat % 65536 = 0 → t.emb.hold[h].rstate = if cfg.getLsbD 23 then .enforce else .wait) ∧
        (r.rstate = .ask → t.emb.hold[h].rstate = .ask ∧ t.emb.hold[h].deadline = r.deadline)) ∧
    (none_ → ∀ l, r.lease = some l → l ≤ s.now → s.embHalted = false → r.grant.v.toNat ≤ floor.toNat →
      does (.embLeaseExp h) fun t => t.emb.counters = e.counters ∧ t.emb.hold[h] = { r with lease := none }) ∧
    (none_ → r.rstate = .ask → r.deadline ≤ s.now → s.embHalted = false → does (.revokeDeadline h) fun t => t.emb.counters = e.counters ∧
      t.emb.hold[h].rstate = (if cfg.getLsbD 23 then .enforce else .wait) ∧ t.emb.hold[h].pend = r.pend) ∧
    (r.rstate ≠ .ask ∨ s.now < r.deadline ∨ s.embHalted = true → e.go = false → Gives (.revokeDeadline h) s s) ∧
    (r.rstate ≠ .ask ∨ s.now < r.deadline → s.embHalted = false → e.go = true → e.waitReg = [] →
      (s.embDue = true → Gives (.revokeDeadline h) s s) ∧
      (s.embDue = false → ∀ m, e.waitMsg = [m] → e.waitHost = none → s.embAdmit = true →
        Gives (.revokeDeadline h) s (State.runMsg { s with emb := { e with go := false, waitMsg := [] } } m))) ∧
    (r.enf.need = true → s.enfFree = true → s.wantsWrite h = true → (∀ k, r.enf.retryAt = some k → k ≤ s.now) →
      let a := fMul (fNat r.enf.want.toNat) (s.reg 0x60044)
      Gives (.embEnforce h) s (State.dev { s.busUsed 2 with emb := { e with hold := e.hold.set h { r with enf := { r.enf with
        need := false, rise := false, onBus := true, sent := r.enf.want, acked := false, limit := a, wire := s.enfBytes h a, retryAt := none } } } } 0x405 4 [nw h.val, a])) ∧
    (r.enf.need = false ∨ s.enfFree = false ∨ (∃ k, r.enf.retryAt = some k ∧ s.now < k) → Gives (.embEnforce h) s s) ∧
    (∀ at_, r.enf.retryAt = some at_ → at_ ≤ s.now → s.enfFree = true → r.enf.need = false → s.wantsWrite h = true →
      Gives (.enforceRetry h) s { s.busUsed 2 with emb := { e with hold := e.hold.set h { r with enf := { r.enf with
        onBus := true, acked := false, wire := s.enfBytes h r.enf.limit, retryAt := none } } } }) ∧
    (∀ err, r.enf.onBus = true → r.rstate = .enforce → e.frozen = false → r.enf.sent.toNat ≤ r.grant.v.toNat → r.pend.v ≠ 0 →
      let a := if r.pend.v.toNat ≤ e.debt.v.toNat then r.pend.v else e.debt.v
      ends (.enforceWriteEnd h true err) 0 fun t => t.emb.counters =
        [e.total.sub a, e.free.add (r.pend.v - a), e.granted, e.transit, e.pending.sub r.pend.v, e.debt.sub a] ∧
        t.emb.hold[h].rstate = .none ∧ t.emb.hold[h].enforced = true ∧ t.emb.hold[h].pend = r.pend.sub r.pend.v ∧
        t.emb.hold[h].enfFail = false ∧ t.emb.hold[h].enf.onBus = false ∧ t.emb.hold[h].enf.fails = 0) ∧
    (∀ err, r.enf.onBus = true → r.rstate ≠ .enforce → ends (.enforceWriteEnd h true err) 0 fun t => t.emb.counters = e.counters ∧
      t.emb.hold[h].rstate = r.rstate ∧ t.emb.hold[h].pend = r.pend ∧ t.emb.hold[h].enforced = (r.enforced || s.hOpen h) ∧
      t.emb.hold[h].enfFail = false ∧ t.emb.hold[h].enf.onBus = false ∧ t.emb.hold[h].enf.fails = 0) ∧
    (∀ err, r.enf.onBus = true → retry err → Gives (.enforceWriteEnd h false err) s s) ∧
    (∀ err, r.enf.onBus = true → ¬ retry err → ends (.enforceWriteEnd h false err) err fun t => t.emb.counters = e.counters ∧
      t.emb.hold[h].enf.onBus = false ∧ t.emb.hold[h].enf.fails = r.enf.fails + 1 ∧ t.emb.hold[h].rstate = r.rstate ∧
      t.emb.hold[h].enfFail = (r.enfFail || decide (r.enf.fails + 1 = 8)) ∧
      (s.wantsWrite h = true → r.enf.need = false ∨ r.enf.sent.toNat < r.enf.want.toNat → r.enf.acked = false →
        t.emb.hold[h].enf.retryAt = some (s.now + max 1 ((s.reg 0x60040).toNat / 65536 % 256)))) ∧
    (r.enf.onBus = false → ∀ ok err, Gives (.enforceWriteEnd h ok err) s s))

/-! ### The tick (R20-R31, R38-R43) -/

/-- TICK_START, once the PLL has locked and with no reset waiting: a new tick, at cycle 0; TICK counts up, but is 0 in the first tick; the pins
are sampled; the tick's event bit is set; a wrap, a slow-frame boundary, the strobe and the commit fall due. Before lock nothing
happens (R38, R39, R392). The exports that an earlier tick received are latched, the last of each pair, with age 0, the other imports grow
older (R134). The charge of the last tick enters the accumulator of every enabled string, its fraction kept, or, after a pair mismatch, the charge since
(R246, R247). Every pending Draft entry is reclipped to its holder's committed grant, and a measured step that reaches its threshold in the
marker window is its arrival: the ramp-out of HANDOFF, or a train that goes on (R200, R202, R204). P_tot, V_pp and every TRAJ word are formed from the
entries' weights and powers (R201, R205; V_pp and P_tot for a controller outside a cluster). SLOW_FRAME_BOUNDARY, when it is due, at cycle 0: the flag sf is set, the slow event bit is set, the accumulators of all 16
strings are latched with TICK, and the watchdog of a controller whose Stoker runs
counts down (R28, R80, R89). SRAM_SCRUB writes back a word with a corrected error, outside the MRAM (R31).
The model's own readings in it: notes/assumptions/1.md, 14.md, 17.md, 18.md, 19.md. -/
def Obligations.TickStarts : Prop :=
  (∀ (p : PinSample) (s : State),
    (s.clk.pllLock = true → s.boot.rstPend = none → Does (.tickStart p) s fun t =>
      let k := if s.time.fresh then s.time.tick else s.time.tick + 1
      t.now = s.now + 1 ∧ t.cycle = 0 ∧
      t.time = { s.time with tick := k, fresh := false, wrapDue := k == 0 && !s.time.fresh, sfDue := k.toNat % 1024 == 0, sf := false,
                             strobeDue := true, commitDue := true } ∧
      t.pins = { acfail := p.acfail, damperIn := p.damperIn, witGrant := p.witGrant, pfail := p.pfail, chgdet := p.chgdet, holdup := p.holdup } ∧
      t.stk.evpend.getLsbD 0 = true ∧ t.mem = s.mem ∧
      t.fbx.impIn = s.fbx.impIn.filter (fun m => s.now < m.1) ∧
      (∀ i : Fin 32,
        let got := (s.fbx.impIn.filter fun m => m.1 ≤ s.now ∧ m.2.2.1.val = i.val / 2).getLast?
        (∀ m, got = some m → t.fbx.imp[i] = { val := if i.val % 2 = 0 then m.2.2.2.1 else m.2.2.2.2, never := false, src := m.2.1, age := 0 }) ∧
        (got = none → t.fbx.imp[i] = if s.fbx.imp[i].never then s.fbx.imp[i] else { s.fbx.imp[i] with age := satAdd s.fbx.imp[i].age 1 })) ∧
      (∀ b : Fin 16, b.val < s.nStrings → (s.reg (0x51060 + 256 * b.val)).getLsbD 31 = true →
        let k := s.bat.str[b]
        let tot : Int := k.residue + ((p.ash.getD b.val 0).toInt - ((s.reg (0x51068 + 256 * b.val)).setWidth 24).toInt) * (s.reg (0x51064 + 256 * b.val)).toNat
        let whole := BitVec.ofInt 64 (tot.fdiv (2 ^ 32))
        let u := t.bat.str[b]
        u.residue = (tot.fmod (2 ^ 32)).toNat ∧
        (k.qBad = true → u.since = k.since + whole ∧ u.q = k.q ∧ u.qBad = true) ∧
        (k.qBad = false → k.q.c = ~~~ k.q.v → u.q = { v := k.q.v + whole, c := ~~~ (k.q.v + whole) } ∧ u.qBad = false) ∧
        (k.qBad = false → k.q.c ≠ ~~~ k.q.v → u.q = k.q ∧ u.qBad = true ∧ u.since = 0 ∧ u.soc = 0x7FC00000)) ∧
      (∀ i : Fin 64,
        let e := s.dft.pend[i]
        let g := s.emb.snap[e.h.toFin].toNat
        let m : Int := if e.valid && g < e.m.natAbs then (if e.m < 0 then -(g : Int) else g) else e.m
        let from_ := max (e.a - (s.reg 0xD000C).toNat % 65536) (e.s + 1)
        let until_ := e.a + max 1 ((s.reg 0xD000C).toNat / 65536)
        let reaches (v b : Word) : Prop :=
          let d := fSub v b
          let thr := fMul (s.reg 0xD0020) (fInt m)
          0 < m ∧ fpGe d thr = true ∨ m < 0 ∧ fpLe d thr = true
        let open_ := e.valid = true ∧ e.z = none ∧ e.phase = 1 ∧ e.arrived = false ∧ from_ < t.now ∧ t.now < until_
        (∀ v b, open_ → t.stepValue = some v → e.base = some b → reaches v b → t.dft.pend[i] =
          if e.shape = 5 then { e with m := m, arrived := true, phase := 1 }
          else { e with m := m, phase := 2, z := some (max (t.now + 1) e.a), zTick := (t.tickAt (max (t.now + 1) e.a)).setWidth 32,
                        zLen := max 1 ((s.reg 0xD0008).toNat % 65536) }) ∧
        (¬ open_ ∨ t.stepValue = none ∨ e.base = none ∨ (∀ v b, t.stepValue = some v → e.base = some b → ¬ reaches v b) →
          t.dft.pend[i] = { e with m := m })) ∧
      (let left (e : PendSt) : Option Word := e.z.bind fun z =>
         if t.now < z then none else some (if z + e.zLen ≤ t.now then 0 else fDiv (fNat (z + e.zLen - t.now)) (fNat e.zLen))
       let faded (e : PendSt) (v : Word) : Word := match left e with | some d => fMul v d | none => v
       let weight (e : PendSt) : Word := faded e (
         let n := min ((s.reg 0xD0004).toNat % 4096) (e.a - e.s - 1)
         let q := fDiv (fNat (t.now + n + 1 - e.a)) (fNat n)
         if 0 < e.m ∧ 0 < n then (if fpLt q 0x3F800000 then q else 0x3F800000) else 0)
       let power (e : PendSt) : Word := faded e (
         let rc := (s.reg (0xD0100 + 4 * e.d.val)).toNat
         let slope := if e.shape = 1 then 500 else if e.shape = 2 then 2000 else if e.shape = 3 then 8000 else 32000
         let ramp := fMul (fNat slope) (fNat (t.now - e.a + 1))
         let w := if fpLt (fInt e.m &&& 0x7FFFFFFF) ramp then fInt e.m &&& 0x7FFFFFFF else ramp
         if t.now < e.a then 0
         else if e.shape = 0 then fInt e.m
         else if e.shape = 5 then (if (t.now - e.a) % max 2 (rc / 65536 % 4096) < rc % 4096 then fInt e.m else 0)
         else if e.m < 0 then w ^^^ 0x80000000 else w)
       let live := t.dft.pend.toList.filter fun e => e.valid && (match e.z with | some z => t.now < z + e.zLen | none => true)
       let total := live.foldl (fun a e => fAdd a (power e)) 0
       let sum := live.foldl (fun a e => if 0 < e.m then fMac a (weight e) (fInt e.m) else a) 0
       let gained := fMul (s.reg 0xD0010) sum
       let capped := if fpLt (s.reg 0xD0014) gained then s.reg 0xD0014 else gained
       let on := (s.reg 0xD0004).getLsbD 31 = true ∧ s.fbx.halted = false
       (s.cluRole = 0 → t.dft.trajW = total ∧ t.dft.ppV = if on ∧ fpGt capped 0 then capped else 0) ∧
       (∀ x : Fin 128, t.fbx.ctx[x].traj = if on then fSum (((List.range 4).filter fun k =>
           (s.reg (0xD0040 + 8 * k)).getLsbD 31 && (s.reg (0xD0040 + 8 * k)).toNat % 128 == x.val).map fun k => (s.reg (0xD0044 + 8 * k), t.dft.trajW))
         else 0))) ∧
    (s.clk.pllLock = false → Gives (.tickStart p) s s)) ∧
  (∀ s : State,
    (s.time.sfDue = true → s.cycle = 0 → Does .slowFrameBoundary s fun t =>
      t.time = { s.time with sf := true, sfDue := false } ∧ t.stk.evpend.getLsbD 1 = true ∧
      t.bat.snapAt = s.time.tick.setWidth 32 ∧ (∀ b : Fin 16, t.bat.str[b].snap = s.bat.str[b].q ∧ t.bat.str[b].q = s.bat.str[b].q) ∧ t.mem = s.mem ∧ t.regs = s.regs ∧ t.cycle = s.cycle ∧
      t.stk.wdogCnt = (if (s.reg 0x68).getLsbD 31 && s.runRole then s.stk.wdogCnt - 1 else s.stk.wdogCnt)) ∧
    (s.time.sfDue = false ∨ s.cycle ≠ 0 → Gives .slowFrameBoundary s s) ∧
    ∀ a : Word, let w := a.toNat - a.toNat % 4
      (inMram a.toNat = false → sget s.ecc w = some .corr → Gives (.sramScrub a) s { s with ecc := sput s.ecc w none }) ∧
      (inMram a.toNat = true ∨ sget s.ecc w ≠ some .corr → Gives (.sramScrub a) s s))

/-- CONVERSION_DONE: the raw code of the channel, and its sample raw × gain + offset, rounded once, stand from the cycle in which its slot
ends, and the channel counts as delivered in this tick; nothing else changes but, for a battery channel, the battery unit (R41, R42, R422).
OUTPUT_STROBE, due once a tick, at cycle 240 and no later: the
outputs of every enabled context are released, or repeated under freeze (R87), and show with the context's flags until the next strobe; the samples become readable; and thread F wakes at fentry where it is enabled and not
halted (R39, R43, R57). Every phase takes its PHS_ISCL, the code of the output that names it or its rail, rounded to nearest and saturated, 2,048 for a NaN, and the
output that limits it; outside the battery rail its DAC holds the code between the limits, the burst peak in a burst (R165-R167).
The model's own readings in it: notes/assumptions/1.md, 17.md, 18.md. -/
def Obligations.ConversionsAndStrobe : Prop :=
  ∀ s : State,
    (∀ (c : Fin 96) (code : BitVec 14), s.clk.pllLock = true → s.awake = true → s.chanOk c.val = true → Does (.conversionDone c code) s fun t =>
      t = { s with cycle := max s.cycle (delivery c.val), log := t.log, bat := t.bat, sns := { s.sns with
        raw := s.sns.raw.set c code,
        sample := s.sns.sample.set c (fMac (s.reg (0x30004 + 16 * c.val)) (fInt code.toInt) (s.reg (0x30000 + 16 * c.val))),
        seen := s.sns.seen ||| (1 : BitVec 96) <<< c.val } } ∧
      (c.val < 64 ∨ 80 ≤ c.val → t.bat = s.bat)) ∧
    (∀ (c : Fin 96) (code : BitVec 14), s.clk.pllLock = false ∨ s.awake = false ∨ s.chanOk c.val = false → Gives (.conversionDone c code) s s) ∧
    (s.time.strobeDue = true → s.cycle ≤ 240 → Does .outputStrobe s fun t =>
      t.cycle = 240 ∧ t.time = { s.time with strobeDue := false } ∧ t.sns = { s.sns with val := s.sns.sample } ∧
      t.regs = s.regs ∧ t.mem = s.mem ∧ t.stk.thB = s.stk.thB ∧
      (∀ x : Fin 128, t.fbx.ctx[x].rel = (if s.ctxEn x && !s.fbx.frozen then s.fbx.ctx[x].out else s.fbx.ctx[x].rel) ∧
        t.fbx.ctx[x].shown = t.fbx.ctx[x].word) ∧
      (∀ q : Fin 4, t.fbx.xhat[q] = (s.fbx.xnext[q]).getD s.fbx.xhat[q]) ∧
      (s.pr.resumeAt = none → ∀ n : Fin 48, n.val < s.nPhases →
        let o := s.phs.ph[n]
        let p := t.phs.ph[n]
        let names (f : BitVec 16 → Bool) : Option Word := (t.released.find? fun d => f d.1).map (·.2)
        let kind (d : BitVec 16) := d.toNat / 4096
        let told := names fun d => kind d = 1 && d.toNat % 4096 = n.val || kind d = 3 && (s.phRail n).any fun g => g.val = d.toNat % 4096
        let scl := s.reg (0x20014 + 256 * n.val)
        let lim := s.reg (0x20018 + 256 * n.val)
        let amps (i : Word) (sign : Int) : BitVec 12 :=
          let v := fMul i scl
          if fIsNaN v then 2048
          else if !fIsFinite v then (if v.getLsbD 31 = decide (0 < sign) then 0 else 4095)
          else BitVec.ofInt 12 (max 0 (min 4095 (2048 + sign * fNearest v)))
        let hi := match p.limA with | some i => min (lim.toNat / 65536 % 4096) (amps (i &&& 0x7FFFFFFF) 1).toNat | none => lim.toNat / 65536 % 4096
        let lo := match p.limA with | some i => max (lim.toNat % 4096) (amps (i &&& 0x7FFFFFFF) (-1)).toNat | none => lim.toNat % 4096
        p.scl = scl ∧ p.limA = (names fun d => kind d = 2 && d.toNat % 4096 = n.val) ∧
        (∀ v, told = some v → p.raw = amps v 1 ∧ p.refA = v) ∧ (told = none → p.raw = o.raw ∧ p.refA = o.refA) ∧
        (t.isBattery n = false → p.eff.toNat = min hi (max lo (match t.usesIpk n with
          | some g => (amps (s.reg (0x23028 + 256 * g.val)) 1).toNat
          | none => p.raw.toNat)))) ∧
      ((s.reg 0x60).getLsbD 0 = true → s.stk.fHalted = false → s.stokerOn = true → s.pr.resumeAt = none →
        t.stk.fLive = true ∧ t.stk.povr = s.stk.fOver ∧ t.stk.fOver = false ∧ t.stk.sf = s.time.sf ∧
        t.stk.thF = { s.stk.thF with pc := s.stk.fentry, intrap := false })) ∧
    (s.time.strobeDue = false ∨ 240 < s.cycle → Gives .outputStrobe s s)

/-- CONTEXT_RUN of an enabled context that computes. Class C (R140-R146, R154, R157, R158): e = r − y rounded once; the notch; the law of 2
or 3 poles; the feed-forward; the rate limit; the clamp; the output and the histories, the law's history
held where the cut and the move have one sign. In a priming tick every e and w history is e, every law history the start value less f, and
set 0 applies; the terms of a change of sets are the last of the law's and the notch's sums. Class S (R148-R152): outputs, innovations and the next
estimate from the matrix block, from x̂ = 0 where it was enabled from 0; equal outputs are equal (R151). The order of the two zeros is a free value (Config.zeroChoice,
notes/assumptions/9.md). The following-error window opens, goes on or closes (R154, R155). A pair
that mismatches faults the context with cause 2, a value that is not finite with cause 4, its outputs held; a following-error window
that has run out faults it with cause 1 whether it computes or not (R155). An infinite clamp does not clamp its side (R145, R150). A
context that is not enabled, or has run in this tick, or is faulted, or whose cycle or sources have not come, changes nothing
(R42, R117, R121, R135).
The model's own readings in it: notes/assumptions/1.md, 31.md. -/
def Obligations.ContextRuns : Prop :=
  ∀ (x : Fin 128) (s : State),
    let c := s.fbx.ctx[x]
    let a := 0x14000 + 128 * x.val
    let ctrl := s.reg a
    let begun : State := { s with cycle := s.startCycle x }
    let due := s.feExpired x = false ∧ s.ctxEn x = true ∧ s.fbxOn = true ∧ c.fault = false ∧ c.ran = false ∧ s.ctxReady x = true ∧
      begun.ctxEcc x = (begun, false)
    let half (w : Word) (hi : Bool) : BitVec 16 := if hi then (w >>> 16).setWidth 16 else w.setWidth 16
    let r := s.source x (half (s.reg (a + 8)) true)
    let y := s.source x (half (s.reg (a + 8)) false)
    let f := s.ffSum x
    let hi := s.pair (a + 32)
    let lo := s.pair (a + 40)
    let tfe := (s.reg (if ctrl.getLsbD 30 then a + 44 else a + 56)).toNat % 65536
    let timed := (tfe ≠ 0 → s.pair (a + 48) ≠ none)
    let z (k : Nat) : Bool := Config.zeroChoice (s.freeCtr + k)
    let mat (k : Nat) : Word := s.word (0x18000 + 4 * (k % 8192))
    let neg (w : Word) : Word := w ^^^ 0x80000000
    let infinite (w : Word) : Bool := !fIsFinite w && !fIsNaN w
    let clamped (k : Nat) (v l h : Word) : Word :=
      let above := if infinite l && !(fpGt l h && fIsFinite h) then v else fpMax (z (k + 1)) v l
      if infinite h then above else fpMin (z k) above h
    let watched (e : Word) (n : CtxSt) : Prop :=
      let emax := s.reg (a + 48)
      let bad := fpGt e emax || fIsNaN e || fIsNaN emax || fpLt emax 0
      if tfe = 0 then n.feRun = c.feRun ∧ n.feTicks = c.feTicks
      else n.feRun = bad ∧ n.feTicks = (if bad then (if c.feRun then satAdd c.feTicks 1 else 1) else 0)
    let faults (cause : BitVec 3) : Prop := Does (.contextRun x) s fun t =>
      t.fbx.ctx[x].fault = true ∧ t.fbx.ctx[x].cause = cause ∧ t.fbx.ctx[x].out = c.rel ∧ t.fbx.ctx[x].rel = c.rel ∧
      (∀ k : Fin 128, k ≠ x → t.fbx.ctx[k] = s.fbx.ctx[k]) ∧ t.regs = s.regs ∧ t.mem = s.mem ∧ t.fbx.xhat = s.fbx.xhat ∧
      t.stk.evpend = s.stk.evpend ||| 0x80
    (s.feExpired x = true → faults 1) ∧
    (due → ctrl.getLsbD 30 = false → r = none ∨ y = none ∨ f = none ∨ hi = none ∨ lo = none ∨ ¬ timed → faults 2) ∧
    (∀ rv yv fv hv lv : Word, due → ctrl.getLsbD 30 = false → timed →
      r = some rv → y = some yv → f = some fv → hi = some hv → lo = some lv →
      let start : Option Word := match c.prime with
        | .no => none
        | .enabled => some (s.reg (a + 92))
        | .rearmed | .lawChanged => some c.rel[(0 : Fin 8)]
        | .resume u => some u
      let e := fSub rv yv
      let first (u : Word) : CtxSt := { c with e1 := e, e2 := e, w1 := e, w2 := e, w3 := e, v1 := fSub u fv, v2 := fSub u fv, v3 := fSub u fv, oL := none, oN := none }
      let c := (start.map first).getD c
      let set : BitVec 3 := if ctrl.getLsbD 27 && start.isNone then c.set else 0
      let C (k : Nat) : Word := mat ((s.reg (a + 80)).toNat % 8192 + 16 * set.toNat + k)
      let last (o : Option Word) : List (Word × Word) := (o.map fun v => (0x3F800000, v)).toList
      let w := if ctrl.getLsbD 28 then fSum ([(C 8, e), (C 9, c.e1), (C 10, c.e2), (neg (C 11), c.w1), (neg (C 12), c.w2)] ++ last c.oN) else e
      let v := if ctrl.getLsbD 29 then
          fSum ([(C 0, w), (C 1, c.w1), (C 2, c.w2), (C 3, c.w3), (neg (C 4), c.v1), (neg (C 5), c.v2), (neg (C 6), c.v3)] ++ last c.oL)
        else fSum ([(C 0, w), (C 1, c.w1), (C 2, c.w2), (neg (C 4), c.v1), (neg (C 5), c.v2)] ++ last c.oL)
      let raw := fAdd v fv
      let prev := start.getD c.rel[(0 : Fin 8)]
      let step := let d := s.reg (a + 60); if fIsNaN d || d.getLsbD 31 then 0 else d
      let slow := if ctrl.getLsbD 26 then
          (if fpEq step 0 then prev else fpMin (z 0) (fpMax (z 1) raw (fSub prev step)) (fAdd prev step)) else raw
      let u := clamped 2 slow lv hv
      let fine := [e, w, v, fv, raw, u].all fIsFinite = true ∧ fIsNaN hv = false ∧ fIsNaN lv = false
      let cut := fSub raw u
      let move := fSub v c.v1
      let hold := fpEq cut 0 = false ∧ fpEq move 0 = false ∧ cut.getLsbD 31 = move.getLsbD 31
      (¬ fine → faults 4) ∧
      (fine → Does (.contextRun x) s fun t =>
        t = { begun with freeCtr := s.freeCtr + 4, fbx := { s.fbx with ctx := t.fbx.ctx }, log := t.log } ∧
        (∀ k : Fin 128, k ≠ x → t.fbx.ctx[k] = s.fbx.ctx[k]) ∧
        (let n := t.fbx.ctx[x]
         n.ran = true ∧ n.out[(0 : Fin 8)] = u ∧ n.rel = c.rel ∧ n.fault = false ∧ n.e1 = e ∧ n.e2 = c.e1 ∧ n.w1 = w ∧ n.w2 = c.w1 ∧ n.w3 = c.w2 ∧
         (hold → n.v1 = c.v1) ∧ (¬ hold → n.v1 = v) ∧ n.v2 = c.v1 ∧ n.v3 = c.v2 ∧ n.prime = .no ∧ n.oL = none ∧ n.oN = none ∧
         n.set = set ∧ watched (e &&& 0x7FFFFFFF) n ∧
         n.clampHi = fpGt slow hv ∧ n.clampLo = fpLt slow lv ∧ n.rate = (ctrl.getLsbD 26 && !fpEq slow raw)))) ∧
    (due → ctrl.getLsbD 30 = true →
      let mb := (s.reg (a + 40)).toNat
      let n := mb / 2 ^ 16 % 8 + 1
      let m := mb / 2 ^ 19 % 8 + 1
      let p := mb / 2 ^ 22 % 8 + 1
      let q : Fin 4 := Fin.ofNat 4 (mb / 2 ^ 28)
      let oA := mb % 8192
      let oB := oA + n * n
      let oC := oB + n * m
      let oL := oC + p * n
      let oK := oL + n * p
      let oG := oK + m * n
      let oU := oG + 2 * m
      let meas (k : Nat) : Option Word := s.source x (half (s.reg (a + 8 + 4 * (k / 2))) (k % 2 = 1))
      let hi (j : Nat) := mat (oU + 4 * j)
      let lo (j : Nat) := mat (oU + 4 * j + 2)
      let paired (j : Nat) : Prop := mat (oU + 4 * j + 1) = ~~~ hi j ∧ mat (oU + 4 * j + 3) = ~~~ lo j
      let ref := s.pair (a + 56)
      (ref = none ∨ (∃ k, k < p ∧ meas k = none) ∨ (∃ j, j < m ∧ ¬ paired j) ∨ ¬ timed → faults 2) ∧
      (∀ (rv : Word) (ys : List Word), ref = some rv → (List.range p).map meas = ys.map some → (∀ j, j < m → paired j) → timed →
        let sum (l : List (Word × Word)) := fSum l
        let dev (k : Nat) : Word := fSub (ys.getD k 0) (s.refMasked x rv)
        let xh (i : Nat) : Word := if c.prime = .enabled then 0 else s.fbx.xhat[q].toList.getD i 0
        let pre (j : Nat) : Word :=
          sum ([(mat (oG + 2 * j), c.traj), (mat (oG + 2 * j + 1), c.acff)] ++ (List.range n).map fun i => (neg (mat (oK + j * n + i)), xh i))
        let same (i j : Nat) : Prop := pre i = pre j ∧ hi i = hi j ∧ lo i = lo j
        let inno (k : Nat) : Word := sum ((0x3F800000, dev k) :: (List.range n).map fun i => (neg (mat (oC + k * n + i)), xh i))
        ∀ u : List Word, u.length = m →
        (∀ j k, j < m → k ≤ j → same k j → (∀ i, i < k → ¬ same i j) → u.getD j 0 = clamped (2 * k) (pre j) (lo j) (hi j)) →
        let next (i : Nat) : Word := sum ((List.range n).map (fun j => (mat (oA + i * n + j), xh j)) ++
          (List.range m).map (fun j => (mat (oB + i * m + j), u.getD j 0)) ++ (List.range p).map (fun k => (mat (oL + i * p + k), inno k)))
        let fine := ((List.range m).map pre ++ (List.range p).map inno ++ (List.range n).map next).all fIsFinite = true ∧
          ∀ j, j < m → fIsNaN (hi j) = false ∧ fIsNaN (lo j) = false
        (¬ fine → faults 4) ∧
        (fine → Does (.contextRun x) s fun t =>
          t = { begun with freeCtr := s.freeCtr + 16, fbx := { s.fbx with ctx := t.fbx.ctx, xnext := t.fbx.xnext }, log := t.log } ∧
          (∀ k : Fin 128, k ≠ x → t.fbx.ctx[k] = s.fbx.ctx[k]) ∧ (∀ k : Fin 4, k ≠ q → t.fbx.xnext[k] = s.fbx.xnext[k]) ∧
          t.fbx.xnext[q] = some (Vector.ofFn fun i => if i.val < n then next i.val else 0) ∧
          (let g := t.fbx.ctx[x]
           g.ran = true ∧ (∀ j : Fin 8, g.out[j] = u.getD j.val 0) ∧ g.rel = c.rel ∧ g.fault = false ∧ g.prime = .no ∧ g.rate = false ∧
           g.clampHi = (List.range m).any (fun j => fpGt (pre j) (hi j)) ∧ g.clampLo = (List.range m).any (fun j => fpLt (pre j) (lo j)) ∧
           watched (dev 0 &&& 0x7FFFFFFF) g)))) ∧
    (s.feExpired x = false → s.ctxEn x = false ∨ s.fbxOn = false ∨ c.fault = true ∨ c.ran = true ∨ s.ctxReady x = false → Gives (.contextRun x) s s)

/-- SHADOW_COMMIT at cycle 599, thread F's frame being over, once a tick (R20, R21). In a controller that is no active, where no structural word is written or
the schedule check finds nothing, every register takes the value of its shadow copy, the tick's last write to it, and every other register
keeps its own; the shadow is empty. A schedule that fails the check keeps every structural word, the other writes
commit, sched_rej and rej_rule are set and record 0x102 is posted (R124, R125). In an active the writes form a parameter set, which commits whole
once its last fragment is in the frame, and not before (R357). A pool frozen by no earlier check is not frozen by the check of cycle 599 while its
ledger is sound; where it is not, the check freezes it, posts record 0x40C, leaves the committed grants as they were, and an active releases its
damper line (R213, R361); a standby takes the mirrored grants and makes no check.
The model's own readings in it: notes/assumptions/1.md, 17.md, 18.md, 53.md, 56.md. -/
def Obligations.ShadowCommits : Prop :=
  (∀ s : State, Regs.wf s.regs = true → s.pr.sets = [] → s.stk.fLive = false → s.stk.fDiscard = false →
    (∀ x : Fin 128, s.fbx.ctx[x].fresh = false) → s.time.commitDue = true → s.stk.limitDue = false →
    let seen := s.withShadow s.lastWrites
    let structural (a : Nat) : Bool := s.lastWrites.any fun w => w.1 == a && seen.isStructural a
    let breach := if s.lastWrites.any fun w => seen.isStructural w.1 then schedCheck seen seen.shReg else none
    (s.pr.role ≠ .active → breach = none → Does .shadowCommit s fun t =>
      t.cycle = 599 ∧ t.time = { s.time with commitDue := false } ∧ t.shadow = [] ∧ t.mem = s.mem ∧ ∀ a, t.reg a = s.shReg a) ∧
    (∀ rule kind i, s.pr.role ≠ .active → breach = some (rule, kind, i) → Tells .shadowCommit s 0x102 5 [nw rule, nw kind, nw i] fun t =>
      t.shadow = [] ∧ t.mem = s.mem ∧ t.fbx.schedRej = true ∧ t.fbx.rejRule = BitVec.ofNat 4 rule ∧
      ∀ a, t.reg a = if structural a then s.reg a else s.shReg a) ∧
    (s.pr.role = .active → breach = none → Does .shadowCommit s fun t =>
      t.cycle = 599 ∧ t.time = { s.time with commitDue := false } ∧ t.shadow = [] ∧ t.mem = s.mem ∧
      (t.pr.sets = [] → ∀ a, t.reg a = s.shReg a) ∧
      (t.pr.sets ≠ [] → t.regs = s.regs ∧ t.pr.sets.map (fun p => (p.num, p.all)) = [(s.time.tick.setWidth 16, s.lastWrites)]))) ∧
  (∀ s : State, s.time.commitDue = true → s.emb.burns = [] →
    (s.emb.frozen = false → s.pr.role ≠ .syncing → s.pr.role ≠ .synced →
      (s.PoolSound → Does .shadowCommit s fun t => t.emb.frozen = false ∧ ∀ h : Fin 256, t.emb.snap[h] = s.emb.hold[h].grant.v) ∧
      (∀ k, embBreach s.emb = some k → Tells .shadowCommit s 0x40C 7
        [Config.codeOf 0x40C 0 k, s.emb.total.v, s.emb.free.v, s.emb.granted.v, s.emb.transit.v, s.emb.pending.v, s.emb.debt.v] fun t =>
          t.emb.frozen = true ∧ t.emb.snap = s.emb.snap ∧ t.pr.role ≠ .active)) ∧
    (s.pr.role = .syncing ∨ s.pr.role = .synced → Does .shadowCommit s fun t =>
      t.emb.frozen = s.emb.frozen ∧ ∀ h : Fin 256, t.emb.snap[h] = s.emb.hold[h].grant.v)) ∧
  (∀ s : State, s.time.commitDue = false → Gives .shadowCommit s s) ∧
  (∀ s : State, s.emb.frozen = false → s.pr.role ≠ .syncing → s.pr.role ≠ .synced →
    (s.PoolSound → s.embCommit.emb.frozen = false ∧ ∀ h : Fin 256, s.embCommit.emb.snap[h] = s.emb.hold[h].grant.v) ∧
    (embBreach s.emb ≠ none → s.embCommit.emb.frozen = true ∧ s.embCommit.emb.snap = s.emb.snap ∧
      ∃ r ∈ s.embCommit.log.posted, r.code = 0x40C ∧ r.sev = 7))

/-! ### Register accesses (R2, R8, R10, R19, R420) -/

/-- REGISTER_WRITE at a 4-aligned address (R8, R10, R19, R20, R97, R420): a stored register takes the word's
implemented bits, every other register keeping its value; a parameter's write joins the shadow; a hardware-written word, a
protected or in-use memory word and the log SRAM refuse it (SYS_ERR locked); a memory word takes it; an absent instance and an
address that names nothing are flagged. A write that must wait for the mirror's queue changes nothing (the model's reading,
DESIGN CHOICE). A complement pair of two parameter words takes effect only when its words are written one after the other by one initiator (R10): the first
is kept, the second completes it, and both join the shadow if it is the complement of the first; a mismatch, a second word without a
first, or one of another initiator writes nothing and sets SYS_ERR pair. The words are compared as written; only implemented bits are kept (R9).
Writing an RO register changes nothing; a 1 clears a W1C bit and a 0 leaves it (R8); a write that would change a locked field of SYS_FRAME_CFG,
SYS_WDOG or NVM_HOLDUP_CFG leaves it and sets SYS_ERR locked_write, its other fields taking effect (R11). A write to the EMB block by
thread F of an active is refused and flagged, one in a standby has no effect, one that comes behind others that wait, in a
handover, or as the seventh of an active's tick waits, and any other is stored (R355, R234).
The model's own readings in it: notes/assumptions/20.md, 21.md, 24.md, 25.md. -/
def Obligations.RegisterWrites : Prop :=
  (∀ (ini : Initiator) (adr v : Word) (s : State), Regs.wf s.regs = true →
    let a := adr.toNat
    let i := s.info a
    let c := Instr.registerWrite ini adr v
    let waits := ini ≠ .F ∧ s.mirHold a = true
    let here := s.absent a = false ∧ ¬ waits ∧ inRegs a = true ∧ a / 0x10000 ≠ 6
    a % 4 = 0 →
    (here → i.kind = .rw → i.rwc = 0 → Does c s fun t => t = { s with regs := t.regs, pr := t.pr, log := t.log } ∧
      t.reg a = v &&& i.mask ∧ ∀ b, b ≠ a → t.reg b = s.reg b) ∧
    (here → i.kind = .par → i.rwc = 0 → Gives c s { s with shadow := s.shadow ++ [{ ini := ini, addr := a, val := v &&& i.mask }] }) ∧
    (here → i.kind = .hw → Gives c s (s.flagErr 29 a)) ∧
    (s.absent a = true → Gives c s (s.flagErr 31 a)) ∧
    (s.absent a = false → s.unmapped a = true → Gives c s (s.flagErr 28 a)) ∧
    (inLog a = true ∨ inMram a = true → Gives c s (s.flagErr 29 a)) ∧
    (inProg a = true ∨ inSram a = true ∧ s.protHit a 4 = false → Gives c s { s with mem := memPut s.mem a (leBytes 4 v.toNat), ecc := sput s.ecc a none }) ∧
    (inSram a = true → s.protHit a 4 = true → Gives c s (s.flagErr 29 a)) ∧
    (inMatrix a = true → ¬ waits → s.matrixInUse ((a - 0x18000) / 4) = true → Gives c s (s.flagErr 29 a)) ∧
    (inMatrix a = true → s.pr.role ≠ .active → s.matrixInUse ((a - 0x18000) / 4) = false →
      Gives c s { s with mem := memPut s.mem a (leBytes 4 v.toNat), ecc := sput s.ecc a none }) ∧
    (s.absent a = false → s.unmapped a = false → waits → Gives c s s)) ∧
  (∀ (ini : Initiator) (adr v : Word) (s : State),
    let a := adr.toNat
    let i := s.info a
    let b := a - 4
    let c := Instr.registerWrite ini adr v
    let without (x : Nat) := s.openPairs.filter fun p => p.base ≠ x
    a % 4 = 0 → s.absent a = false → inRegs a = true → a / 0x10000 ≠ 6 → i.kind = .par → i.rwc = 2 →
    (i.widx = 0 → (∀ p ∈ s.openPairs, p.base ≠ a) →
      Gives c s { s with openPairs := s.openPairs ++ [{ base := a, ini := ini, words := [v], since := s.now }] }) ∧
    (i.widx = 1 → (∀ p ∈ s.openPairs, p.base ≠ b) → Gives c s (s.flagErr 30 a)) ∧
    (∀ p, i.widx = 1 → s.openPairs.find? (fun q => q.base = b) = some p →
      (p.ini ≠ ini → Gives c s { s.flagErr 30 a with openPairs := without b }) ∧
      (∀ w, p.ini = ini → p.words = [w] → v ≠ ~~~ w → Gives c s (State.flagErr { s with openPairs := without b } 30 a)) ∧
      (∀ w, p.ini = ini → p.words = [w] → v = ~~~ w → (s.info b).kind = .par → Gives c s { s with
        openPairs := without b,
        shadow := s.shadow ++ [{ ini := ini, addr := b, val := w &&& (s.info b).mask },
                               { ini := ini, addr := b + 4, val := ~~~ (w &&& (s.info b).mask) }] }))) ∧
  (∀ (ini : Initiator) (v : Word) (s : State), Regs.wf s.regs = true →
    let write (a : Nat) := Instr.registerWrite ini (BitVec.ofNat 32 a) v
    let locked (on : Prop) [Decidable on] (a : Nat) (t : State) : Prop :=
      t.sys.err = (if on then s.sys.err ||| 0x20000000 else s.sys.err) ∧
      t.sys.errAddr = if on ∧ s.sys.err = 0 then BitVec.ofNat 32 a else s.sys.errAddr
    (∀ a, a ∈ [0x08, 0x0C, 0x14, 0x1C, 0x20, 0x24, 0x50, 0x54, 0x88, 0x8C, 0x98, 0x10000, 0x24000, 0x40000, 0x50000, 0x5000C, 0x60000, 0x60008,
        0x60010, 0x60018, 0x60058, 0x80008, 0x80024, 0x80084, 0xB0000, 0xD0000, 0xD0024, 0xD0028, 0xD002C, 0xE0008, 0xE0200] →
      s.absent a = false → ¬ (ini = .F ∧ s.pr.role = .active ∧ a / 0x10000 = 6) →
      (s.mirrored a = false ∨ (ini ≠ .F ∧ s.mirHold a = true) → Gives (write a) s s) ∧
      (s.mirrored a = true → Does (write a) s fun t => t = { s with pr := t.pr, log := t.log })) ∧
    Gives (write 0x10) s { s with sys := { s.sys with err := s.sys.err &&& ~~~ (v &&& 0xF0000000) } } ∧
    Gives (write 0x18) s { s with sys := { s.sys with eccUncorr := s.sys.eccUncorr && !v.getLsbD 31 } } ∧
    Gives (write 0x44) s { s with clk := { s.clk with linkLost := s.clk.linkLost && !v.getLsbD 9, refLost := s.clk.refLost && !v.getLsbD 8 } } ∧
    Gives (write 0x4C) s { s with time := { s.time with timeLost := s.time.timeLost && !v.getLsbD 6 } } ∧
    Gives (write 0x64) s { s with stk := { s.stk with fDtrap := s.stk.fDtrap && !v.getLsbD 1 } } ∧
    Gives (write 0x80020) s { s with nvm := { s.nvm with
      uncorr := s.nvm.uncorr && !v.getLsbD 31, denied := s.nvm.denied && !v.getLsbD 30, regErr := s.nvm.regErr && !v.getLsbD 29 } } ∧
    Does (write 0x60) s (fun t =>
      let old := s.reg 0x60
      let on := old.getLsbD 31 = true
      t.reg 0x60 = ((if on then old else v) &&& 0x00FF0300) ||| (v &&& 1) ||| (if on ∨ v.getLsbD 31 = true then 0x80000000 else 0) ∧
      (∀ a, a ≠ 0x60 → t.reg a = s.reg a) ∧ locked (on ∧ v &&& 0x00FF0300 ≠ old &&& 0x00FF0300) 0x60 t) ∧
    Does (write 0x68) s (fun t =>
      let old := s.reg 0x68
      let on := old.getLsbD 31 = true
      t.reg 0x68 = ((if on then old else v) &&& 0xFF) ||| (if on ∨ v.getLsbD 31 = true then 0x80000000 else 0) ∧
      t.stk.wdogCnt = (if v.getLsbD 31 then max 1 ((t.reg 0x68).toNat % 256) else s.stk.wdogCnt) ∧
      (∀ a, a ≠ 0x68 → t.reg a = s.reg a) ∧ locked (on ∧ v &&& 0xFF ≠ old &&& 0xFF) 0x68 t) ∧
    (∀ k : Fin 4, let a := 0x80010 + 4 * k.val
      Does (write a) s fun t =>
        let on := (s.reg 0x80004).getLsbD 31 = true
        t.reg a = (if on then s.reg a else v) ∧ (∀ b, b ≠ a → t.reg b = s.reg b) ∧ locked (on ∧ v ≠ s.reg a) a t)) ∧
  (∀ (ini : Initiator) (a : Nat) (v : Word) (s : State), Regs.wf s.regs = true → a ∈ [0x60004, 0x60040, 0x60044, 0x60050] →
    let c := Instr.registerWrite ini (BitVec.ofNat 32 a) v
    let waits := s.emb.waitReg ≠ [] ∨ s.pr.resumeAt.isSome = true ∨ s.pr.role = .active ∧ 6 ≤ s.emb.ops
    (ini = .F → s.pr.role = .active → Gives c s (s.flagErr 29 a)) ∧
    (s.pr.role = .syncing ∨ s.pr.role = .synced → Gives c s s) ∧
    (s.pr.role ≠ .syncing → s.pr.role ≠ .synced → ini ≠ .F ∨ s.pr.role ≠ .active →
      (waits → Gives c s { s with emb := { s.emb with waitReg := s.emb.waitReg ++ [(ini, a, v, 0xFFFFFFFF)] } }) ∧
      (¬ waits → Does c s fun t => t.reg a = v &&& (s.info a).mask ∧ (∀ b, b ≠ a → t.reg b = s.reg b) ∧ t.mem = s.mem ∧
        t.emb.ops = (if s.pr.role = .active then s.emb.ops + 1 else s.emb.ops) ∧ t.emb.hold = s.emb.hold ∧ t.emb.counters = s.emb.counters)))

/-- ABSENT_UNIT_ACCESS and UNMAPPED_ACCESS read 0, write nothing and set their flag, SYS_ERR's address recorded while every flag was clear
(R2, R420, R421); TICK_LO_READ gives TICK[31:0] and latches TICK[47:32] and the epoch for its initiator (R45).
The model's own readings in it: notes/assumptions/1.md, 58.md. -/
def Obligations.RegisterReads : Prop :=
  ∀ (ini : Initiator) (a : Word) (s : State),
    let flagged (f : Nat) : State := { s with sys := { s.sys with rdata := 0, err := s.sys.err ||| (1 : Word) <<< f,
                                                                   errAddr := if s.sys.err = 0 then a else s.sys.errAddr } }
    let n : Fin 4 := match ini with | .F => 0 | .B => 1 | .spi => 2 | .twi0 => 3
    (s.absent a.toNat = true → Gives (.absentUnitAccess ini a) s (flagged 31)) ∧
    (s.absent a.toNat = false → Gives (.absentUnitAccess ini a) s s) ∧
    (ini = .spi ∨ ini = .twi0 → s.absent a.toNat = false → s.unmapped a.toNat = true → Gives (.unmappedAccess ini a) s (flagged 28)) ∧
    (s.unmapped a.toNat = false → Gives (.unmappedAccess ini a) s s) ∧
    Gives (.tickLoRead ini) s { s with sys := { s.sys with
      rdata := s.time.tick.setWidth 32,
      tickHi := s.sys.tickHi.set n ((s.time.tick >>> 32).setWidth 32 ||| s.time.epoch.setWidth 32 <<< 16) } }

/-! ### Clock and time (R32-R36, R45-R52) -/

/-- Clock events (R32-R35, R52). LINK_MODE_ENTER, with src for the link, the PLL locked and the boot path ended: once the port holds a valid stream the PLL goes to
link mode; LINK_MODE_RETURN, after the link clock was lost: once it has held one for 64 ticks in a row since. A follower then starts anew.
LINK_CLK_LOST: back to reference mode, or holdover without REFCLK, record 0x013. REFCLK_LOST: record 0x010, and in reference mode
holdover, unless holdover has run out; a paired active releases its damper line too. REFCLK_BACK ends a holdover that has not run out, record 0x011,
and comes after the expiry of one that has (R6).
HOLDOVER_EXP, after 10,000 ticks of holdover: every phase and rail is stopped with cause 7, record 0x012.
The model's own readings in it: notes/assumptions/1.md, 12.md, 48.md. -/
def Obligations.ClockEvents : Prop :=
  ∀ s : State,
    let k := s.clk
    let p : Fin 4 := Fin.ofNat 4 ((s.reg 0x40).toNat / 256 % 4)
    let expired := k.holdover = true ∧ k.holdStart = none
    let asked := (s.reg 0x40).toNat % 4 = 1 ∧ k.mode = false ∧ k.pllLock = true ∧ (s.boot.stage = .done ∨ s.boot.stage = .halted) ∧ ¬ expired ∧ p.val < s.nPorts
    let q := (s.reg 0x48).toNat
    let inLink : State := { s with clk := { k with mode := true, port := BitVec.ofNat 2 p.val, holdover := false, holdStart := none, fell := false },
                                   time := if q % 4 = 1 ∧ q / 16 % 4 = p.val then { s.time with freeRun := false, lastTime := s.now, lockRun := 0 }
                                           else s.time }
    let enters := asked ∧ k.fell = false ∧ s.link.port[p].lockAt ≠ none
    let returns := asked ∧ k.fell = true ∧ ∃ l, s.link.port[p].lockAt = some l ∧ max l (k.fellAt + 1) + 63 ≤ s.now
    (enters → Gives .linkModeEnter s inLink) ∧ (returns → Gives .linkModeReturn s inLink) ∧
    (¬ enters → Gives .linkModeEnter s s) ∧ (¬ returns → Gives .linkModeReturn s s) ∧
    (k.mode = true → k.refOk = true → Gives .linkClkLost s (State.dev { s with clk := { k with linkLost := true, fell := true, fellAt := s.now, mode := false } } 0x013 5 [])) ∧
    (k.mode = true → k.refOk = false → Gives .linkClkLost s (State.dev { s with clk := { k with
      linkLost := true, fell := true, fellAt := s.now, mode := false, holdover := true, holdStart := if expired then none else some s.now } } 0x013 5 [])) ∧
    (k.mode = false → Gives .linkClkLost s s) ∧
    (k.refOk = true → k.mode = true → Gives .refclkLost s (State.dev { s with clk := { k with refOk := false, refLost := true } } 0x010 7 [])) ∧
    (k.refOk = true → k.mode = false →
      let u := State.dev { s with clk := { k with refOk := false, refLost := true, holdover := true,
                                                  holdStart := if expired then none else some s.now } } 0x010 7 []
      (s.pr.role ≠ .active → Gives .refclkLost s u) ∧
      (s.pr.role = .active → Does .refclkLost s fun t => t.clk = u.clk ∧ t.pr.role = .failed ∧ t.pr.faultOut = true ∧ t.pr.gateOpen = false ∧
        t.stk.evpend = s.stk.evpend ||| 0x800)) ∧
    (k.refOk = false → Gives .refclkLost s s) ∧
    (∀ t0, k.refOk = false → k.holdover = true → k.holdStart = some t0 → s.now < t0 + 10000 →
      Gives .refclkBack s (State.dev { s with clk := { k with refOk := true, holdover := false, holdStart := none } } 0x011 4 [])) ∧
    (k.refOk = false → k.holdStart = none → Gives .refclkBack s { s with clk := { k with refOk := true } }) ∧
    (∀ t0, k.holdStart = some t0 → t0 + 10000 ≤ s.now →
      let runsOut (c : Instr) (l : ClkSt) : Prop := Tells c s 0x012 7 [] fun t =>
        t.clk = { l with holdoverExp := true, holdStart := none } ∧ t.regs = s.regs ∧ t.mem = s.mem ∧
        (∀ n : Fin 48, t.phs.ph[n].sw = false) ∧ ∀ g : Fin 16, t.phs.rail[g].state = .off ∧ t.phs.rail[g].inhibit = true ∧ t.phs.rail[g].cause = 7
      runsOut .holdoverExp k ∧ (k.refOk = false → runsOut .refclkBack { k with refOk := true })) ∧
    (∀ t0, k.holdStart = some t0 → s.now < t0 + 10000 → Gives .holdoverExp s s) ∧
    (k.holdStart = none → Gives .holdoverExp s s)

/-- Time events (R45-R52, R340). SYNC from the parent: the offset, its whole ticks N and rest; where N is 0 and no earlier one was otherwise, the parent's
epoch at its own TICK is taken and 64 messages in a row within 3 ns lock (record 0x021), else record 0x023 tells it and nothing is corrected until a
step; more than 6 ns unlocks. A SYNC after 64 ticks without a TIME message comes after the loss of time (R6, R51). DELAY_REQ is answered with its
turnaround; DELAY_RSP gives half of the rest of the trip, and is a message of the parent to a follower; a port in TRAINING takes it from any. TIME_LOST, when its cause stands: unlocked, free running, record 0x020.
TIME_STEP adopts the parent's count at its slow-frame boundary, record 0x022; EPOCH_SET and TICK_WRAP change the epoch and post
record 0x050. The commands request the step (follower) or the epoch (root).
The model's own readings in it: notes/assumptions/1.md, 12.md, 18.md, 46.md, 47.md. -/
def Obligations.TimeEvents : Prop :=
  ∀ s : State,
    let k := s.time
    let epochThere (e : BitVec 16) (pt mine : BitVec 48) : BitVec 16 :=
      BitVec.ofInt 16 ((((e.toNat * 2 ^ 48 + pt.toNat : Nat) : Int) + (mine - pt).toInt).fdiv (2 ^ 48))
    let heard := k.freeRun = true ∨ s.now < k.lastTime + 64
    (∀ (p : Fin 4) (pt ot : BitVec 48) (pe : BitVec 16) (hops : BitVec 4) (late : Int),
      s.isFollower = true → p = s.parentPort → s.portUp p = true → hops.toNat < 8 →
      let ofs := (pt - ot).toInt * 1000000 - late + k.hopDly.toNat
      let n := (ofs + 500000).fdiv 1000000
      let run := if ofs.natAbs ≤ 3000 then k.lockRun + 1 else 0
      let off := n ≠ 0 ∨ k.countMismatch = true
      let w := BitVec.ofInt 32 ofs
      let c := Instr.sync p pt pe hops ot late
      (-2147483648 ≤ ofs) → ofs ≤ 2147483647 →
      (heard → Does c s fun t =>
        t = { s with time := t.time, link := t.link, log := t.log } ∧ t.time.ofs = w ∧ t.time.ofsN = n ∧
        t.time.ofsR = ofs - 1000000 * n ∧ t.time.hops = hops + 1 ∧ t.time.freeRun = false ∧ t.time.lastTime = s.now ∧ t.time.tick = k.tick ∧
        t.link.port[p].syncAt = some s.now ∧ t.time.parEpoch = pe ∧ t.time.parTick = pt ∧
        t.time.epoch = (if off then k.epoch else epochThere pe pt k.tick) ∧ t.time.lockRun = run ∧
        t.time.locked = (if 6000 < ofs.natAbs then false else k.locked || decide (¬ off ∧ 64 ≤ run)) ∧ t.time.countMismatch = decide off) ∧
      (heard → ¬ off → k.locked = false → 64 ≤ run → Tells c s 0x021 2 [(hops + 1).setWidth 32, w] fun t => t.time.locked = true) ∧
      (heard → n ≠ 0 → Gives c s (State.dev
        { s with link := (s.modPort p fun q => { q with syncAt := some s.now }).link, time := { k with
          ofs := w, hops := hops + 1, ofsN := n, ofsR := ofs - 1000000 * n, parEpoch := pe, parTick := pt, lastTime := s.now,
          freeRun := false, lockRun := 0, locked := false, countMismatch := true, slewing := false } } 0x023 5 [BitVec.ofInt 32 n])) ∧
      (¬ heard → Tells c s 0x020 4 [Config.codeOf 0x020 0 2] fun t =>
        t.time.timeLost = true ∧ t.time.freeRun = false ∧ t.time.lastTime = s.now ∧ t.time.lockRun = if ofs.natAbs ≤ 3000 then 1 else 0)) ∧
    (∀ (p : Fin 4) (turn trip : Word), s.pr.role ≠ .failed → s.awake = true → s.stkEn p = true → s.link.port[p].st ≠ 0 →
      let parent := s.timeRole = 1 ∧ p = s.parentPort
      let d : Word := BitVec.ofNat 32 ((trip.toNat - turn.toNat) / 2)
      Does (.delayReq p turn) s (fun t => t = { s with link := t.link, log := t.log } ∧
        t.link.port[p].times = s.link.port[p].times ++ [s.timeMsg 2 (leBytes 4 turn.toNat)] ∧
        ∀ q : Fin 4, q ≠ p → t.link.port[q] = s.link.port[q]) ∧
      (s.portUp p = false ∨ (s.isFollower = true ∧ p = s.parentPort ∧ heard) →
        Gives (.delayRsp p turn trip) s { s with
          link := (s.modPort p fun q => { q with dly := d }).link
          time := if parent then { k with hopDly := d, lastTime := if s.portUp p then s.now else k.lastTime } else k }) ∧
      (s.portUp p = true → s.isFollower = false ∨ p ≠ s.parentPort → Gives (.delayRsp p turn trip) s s)) ∧
    (∀ cause : Fin 3, s.timeRole = 1 → k.freeRun = false →
      (match cause with | 0 => s.clk.mode = false | 1 => ∀ l, s.link.port[s.parentPort].lockAt = some l → k.lastTime < l | 2 => k.lastTime + 64 ≤ s.now) →
      Gives (.timeLost cause) s (State.dev { s with time := { k with locked := false, freeRun := true, timeLost := true, slewing := false, lockRun := 0 } }
        0x020 4 [Config.codeOf 0x020 0 cause.val])) ∧
    (k.stepPend = true → s.isFollower = true → s.cycle = 0 →
      let new : BitVec 48 := k.tick + BitVec.ofInt 48 k.ofsN
      let u : State := State.dev { s with time := { k with
        tick := new, countMismatch := false, stepPend := false, slewing := true, ofsN := 0, sfDue := true } } 0x022 5 (tickWords k.tick ++ tickWords new)
      let e := epochThere k.parEpoch k.parTick new
      new.toNat % 1024 = 0 → (e = k.epoch → Gives .timeStep s u) ∧
        (e ≠ k.epoch → Gives .timeStep s (State.dev { u with time := { u.time with epoch := e } } 0x050 2 (e.setWidth 32 :: tickWords new)))) ∧
    (∀ e, k.epochReq = some e → s.cycle = 0 → k.sf = true ∨ k.sfDue = true → Gives .epochSet s (State.dev (State.dev
      { s with time := { k with epoch := e, epochReq := none } } 0x024 4 [k.epoch.setWidth 32, e.setWidth 32]) 0x050 2 (e.setWidth 32 :: tickWords k.tick))) ∧
    (k.wrapDue = true → s.cycle = 0 → Gives .tickWrap s (State.dev { s with time := { k with wrapDue := false, epoch := k.epoch + 1 } }
      0x050 2 ((k.epoch + 1).setWidth 32 :: tickWords k.tick))) ∧
    (∀ (ini : Initiator) (e : BitVec 16),
      Gives (.timeCmdStep ini) s (if s.isFollower then { s with time := { k with stepPend := true } } else s) ∧
      Gives (.timeCmdSetEpoch ini e) s (if (s.reg 0x48).toNat % 4 = 2 then { s with time := { k with epochReq := some e } } else s)) ∧
    (k.wrapDue = false ∨ s.cycle ≠ 0 → Gives .tickWrap s s) ∧ (k.stepPend = false → Gives .timeStep s s) ∧ (k.epochReq = none → Gives .epochSet s s)

/-! ### Sequencer tables, timers and events (R96-R109) -/

/-- Sequencer commands and events. SEQ_INST_GO starts a validation of the table at SEQ_INST_ADDR, or answers 6 while one runs;
SEQ_INST_REMOVE asks for a removal at the commit, or answers 6 busy, 2 no such type or id, 8 not installed; the end of a
validation counts and tells the memory errors of the words it reads (R29, R30), lets a good table wait for the commit and refuses a bad
one with its result and record 0x041. A due installation
replaces the table of its type and id, forgets the old DRAFT_MAP's last sequence numbers (R197), and starts a machine afresh unless its state is kept (R100); a due removal takes it away, or is
refused with 7 for a curve in use; record 0x040. SEQ_MEVSET sets event bits; a running timer that has run out sets its expired
bit and the event (R96-R100, R108, R109, R425).
The model's own readings in it: notes/assumptions/1.md, 20.md, 50.md. -/
def Obligations.SequencerEvents : Prop :=
  ∀ (ini : Initiator) (s : State),
    let q := s.seq
    let result (n : BitVec 4) : State := { s with seq := { q with result := n } }
    let free (a : Nat) : Prop := ini = .F ∨ s.mirHold a = false
    let told (j : InstJob) : State := (State.readAll { s with seq := { q with job := none } } (Config.codeOf 0x019 1 8) (s.tblWords j.addr)).1
    (∀ keep : Bool, free 0xE0004 → let c := Instr.seqInstGo ini keep
      let told (u : State) : State := u.mirWr ini 0xE0004 (if keep then 0x80010000 else 0x80000000)
      (q.job = none → Gives c s (told { s with seq := { q with
        job := some { addr := (s.reg 0xE0000).toNat, len := s.tblLen (s.reg 0xE0000).toNat, keep := keep } } })) ∧
      (q.job ≠ none → Gives c s (told (result 6)))) ∧
    (∀ (typ : BitVec 3) (id : Byte), free 0xE0004 → let c := Instr.seqInstRemove ini typ id
      let told (u : State) : State := u.mirWr ini 0xE0004 (0x80020000 ||| id.setWidth 32 <<< 8 ||| typ.setWidth 32)
      (q.job ≠ none → Gives c s (told (result 6))) ∧
      (q.job = none → (∀ m, maxId typ.toNat = some m → m < id.toNat) → Gives c s (told (result 2))) ∧
      (∀ m, q.job = none → maxId typ.toNat = some m → id.toNat ≤ m → s.table typ id.toNat = none → Gives c s (told (result 8))) ∧
      (∀ m t, q.job = none → maxId typ.toNat = some m → id.toNat ≤ m → s.table typ id.toNat = some t →
        Gives c s (told { s with seq := { q with pend := q.pend ++ [(.remove typ id, false)] } }))) ∧
    (∀ j, q.job = some j → s.tblCheck j.addr = none → let u := told j
      Gives .tableValidationDone s { u with seq := { u.seq with pend := q.pend ++ [(.install j, false)] } }) ∧
    (∀ j r o, q.job = some j → s.tblCheck j.addr = some (r, o) → inData j.addr 16 = true →
      let u := told j
      Gives .tableValidationDone s (State.dev { u with seq := { u.seq with result := BitVec.ofNat 4 r } } 0x041 5
        [(s.byte j.addr).setWidth 32, (s.byte (j.addr + 1)).setWidth 32, nw r, nw o])) ∧
    (∀ j ps, takeDue (fun p => match p with | .install _ => true | .remove _ _ => false) q.pend = some (.install j, ps) →
      let typ : BitVec 3 := (s.byte j.addr).setWidth 3
      let id := s.byte (j.addr + 1)
      let ver := (s.byte (j.addr + 2)).toNat + 256 * (s.byte (j.addr + 3)).toNat
      let m : Fin 64 := Fin.ofNat 64 id.toNat
      let keeps := (s.table typ id.toNat).isSome = true ∧ j.keep = true ∧ q.mach[m].state.toNat < (s.byte (j.addr + 16)).toNat
      Does .tableInstalled s fun t => t = { s with seq := t.seq, dft := { s.dft with maps := t.dft.maps }, log := t.log } ∧
        t.dft.maps = (if typ = 5 then [] else s.dft.maps) ∧ t.seq.pend = ps ∧ t.seq.result = 0 ∧
        t.seq.tbls = (q.tbls.filter fun u => !(u.typ = typ && u.id = id)) ++
          [{ typ := typ, id := id, addr := j.addr, len := j.len, version := BitVec.ofNat 16 ver }] ∧
        (typ ≠ 1 ∨ keeps → t.seq.mach = q.mach ∧ t.seq.tmr = q.tmr) ∧
        (typ = 1 → ¬ keeps → t.seq.mach[m].state = (s.byte (j.addr + 17)).setWidth 5 ∧ t.seq.mach[m].ev = 0 ∧
          ∀ k : Fin 64, k ≠ m → t.seq.mach[k] = q.mach[k])) ∧
    (∀ typ id ps, takeDue (fun p => match p with | .install _ => false | .remove _ _ => true) q.pend = some (.remove typ id, ps) →
      (s.table typ id.toNat = none → Gives .tableRemoved s { s with seq := { q with pend := ps, result := 8 } }) ∧
      (∀ t, s.table typ id.toNat = some t → typ = 2 → s.curveUsed id.toNat = true →
        Gives .tableRemoved s { s with seq := { q with pend := ps, result := 7 } }) ∧
      (∀ t, s.table typ id.toNat = some t → typ = 1 → Gives .tableRemoved s (State.dev (State.clearTimers { s with seq := { q with
          pend := ps, result := 0, tbls := q.tbls.filter fun u => !(u.typ = typ && u.id = id) } } (Fin.ofNat 64 id.toNat))
          0x040 2 [nw typ.toNat, id.setWidth 32, t.version.setWidth 32, nw t.addr])) ∧
      (∀ t, s.table typ id.toNat = some t → typ ≠ 1 → typ ≠ 2 ∨ s.curveUsed id.toNat = false →
        Gives .tableRemoved s (State.dev { s with seq := { q with
          pend := ps, result := 0, tbls := q.tbls.filter fun u => !(u.typ = typ && u.id = id) } }
          0x040 2 [nw typ.toNat, id.setWidth 32, t.version.setWidth 32, nw t.addr]))) ∧
    (∀ (j : Fin 64) (b : BitVec 16), free (0xE0300 + 4 * j.val) → Gives (.seqMevset ini j b) s (State.mirSeq (State.mirWr { s with seq := { q with
      mach := q.mach.set j { q.mach[j] with ev := q.mach[j].ev ||| b } } } ini (0xE0300 + 4 * j.val) (b.setWidth 32)) ini j)) ∧
    (∀ i : Fin 128, let t := q.tmr[i]
      let out := t.run = true ∧ s.yetHalted = false ∧ (if t.unit then t.left = 0 else t.stop ≤ s.now)
      (out → Gives (.seqTimerExpire i) s { s with stk := (s.evp 9).stk, seq := { q with
        tmr := q.tmr.set i { t with run := false, exp := true, left := 0 } } }) ∧ (¬ out → Gives (.seqTimerExpire i) s s)) ∧
    (q.job = none → Gives .tableValidationDone s s)

/-! ### Firebox events (R122-R160) -/

/-- Firebox events. FE_EXPIRE, at cycle 0: a window that has reached t_fe faults its context with cause 1, computing or not. FBX_CLR asks for the re-arm of a
faulted context; CTX_REARM, after the tick's commit, clears the fault, its cause and action as they read, and primes it from its held output, record 0x101. EXPORT_MESSAGE waits for cycle
0 of a later tick, where IMPORT_LATCH latches the newest value of each pair with its source. RESUME_PRIMED, in its
tick after a handover: every enabled class C context is primed with its resume value, or CONST where it was enabled meanwhile, and the Firebox computes, record 0x106 with their number and
TICK (R134, R137, R155, R157, R159).
The model's own readings in it: notes/assumptions/1.md, 18.md, 31.md. -/
def Obligations.FireboxEvents : Prop :=
  ∀ s : State,
    (∀ x : Fin 128, let c := s.fbx.ctx[x]
      (s.cycle = 0 → c.fault = false → c.ran = false → s.feDue x = true → Does (.feExpire x) s fun t =>
        t.fbx.ctx[x].fault = true ∧ t.fbx.ctx[x].cause = 1 ∧ t.fbx.ctx[x].out = c.rel ∧ t.fbx.ctx[x].feRun = false ∧
        (∀ k : Fin 128, k ≠ x → t.fbx.ctx[k] = s.fbx.ctx[k]) ∧ t.regs = s.regs ∧ t.mem = s.mem ∧ t.stk.evpend = s.stk.evpend ||| 0x80) ∧
      (s.feDue x = false ∨ s.cycle ≠ 0 → Gives (.feExpire x) s s) ∧
      (∀ ini : Initiator, x.val < s.nCtx → Gives (.fbxClr ini x) s (if c.fault then
        { s with fbx := { s.fbx with ctx := s.fbx.ctx.set x { c with rearm := c.rearm ++ [ini] } } } else s)) ∧
      (∀ ini : Initiator, s.nCtx ≤ x.val → Gives (.fbxClr ini x) s (s.flagErr 31 0x10008)) ∧
      (∀ ini, s.time.commitDue = false → c.fault = true → c.rearm.getLast? = some ini → Gives (.ctxRearm x) s (State.dev
        { s with fbx := { s.fbx with ctx := s.fbx.ctx.set x { c with
          rearm := [], fault := false, cause := 0, act := 0, fresh := false, feRun := false, feTicks := 0, shown := c.shown &&& 0x03FFFFFF,
          prime := if c.prime = .enabled then .enabled else .rearmed } } } 0x101 2 [nw x.val, iniWord ini])) ∧
      (c.rearm = [] ∨ s.time.commitDue = true → Gives (.ctxRearm x) s s)) ∧
    (∀ (src : BitVec 14) (j : Fin 16) (v0 v1 : Word) (p : Fin 4), s.stkLive = true → s.portUp p = true →
      Gives (.exportMessage src j v0 v1) s { s with fbx := { s.fbx with impIn := s.fbx.impIn ++ [(s.now, src, j, v0, v1)] } }) ∧
    (s.cycle = 0 → Does .importLatch s fun t =>
      t = { s with fbx := t.fbx, dft := t.dft, link := t.link, log := t.log } ∧ t.fbx.impIn = s.fbx.impIn.filter (fun m => s.now ≤ m.1) ∧
      t.dft.fwdIn = s.dft.fwdIn.filter (fun m => s.now ≤ m.1) ∧ t.dft.vppIn = s.dft.vppIn.filter (fun m => s.now ≤ m.1) ∧
      (∀ i : Fin 32,
        let got := (s.fbx.impIn.filter fun m => m.1 < s.now ∧ m.2.2.1.val = i.val / 2).getLast?
        (∀ m, got = some m → t.fbx.imp[i] = { val := if i.val % 2 = 0 then m.2.2.2.1 else m.2.2.2.2, never := false, src := m.2.1, age := 0 }) ∧
        (got = none → t.fbx.imp[i] = s.fbx.imp[i]))) ∧
    (s.cycle ≠ 0 → Gives .importLatch s s) ∧
    (∀ at_, s.pr.resumeAt = some at_ → at_ ≤ s.now → s.pr.role = .active →
      let number := ((List.finRange 128).filter fun x => s.ctxEn x && !(s.reg (0x14000 + 128 * x.val)).getLsbD 30).length
      Tells .resumePrimed s 0x106 3 (nw number :: tickWords s.time.tick) fun t =>
      t = { s with fbx := t.fbx, dft := { s.dft with trajW := t.dft.trajW, ppV := t.dft.ppV }, pr := { s.pr with resumeAt := none },
                   emb := { s.emb with hold := t.emb.hold, xfer := t.emb.xfer }, log := t.log } ∧ t.emb.hold.map (·.grant) = s.emb.hold.map (·.grant) ∧ t.fbx.halted = (!s.awake) ∧
      ∀ x : Fin 128, let drafted := { s.fbx.ctx[x] with traj := t.fbx.ctx[x].traj, acff := t.fbx.ctx[x].acff }
        t.fbx.ctx[x] = if s.ctxEn x then { drafted with
          prime := if s.fbx.ctx[x].prime = .enabled then .enabled else if (s.reg (0x14000 + 128 * x.val)).getLsbD 30 then .no else .resume (s.resumeVal (plans s s.reg) x)
          fault := false, fresh := false, feRun := false, feTicks := 0, rearm := [] } else drafted) ∧
    (s.pr.resumeAt = none → Gives .resumePrimed s s)

/-! ### Phases and rails (R161-R188) -/

/-- Phase events. PERIOD_START, when the carrier of its rail reaches the phase's offset, but no sooner than the minimum on-time and off-time of the period under way allow (R168): an on-time still open ended at the longest; a phase that
is to stop stops; one that switches takes its effective code, its direction and its timing for the period, a limited one counted, and
emits no pulse at or below the centre where it is not bidirectional. COMPARATOR_TRIP, past blanking and minimum on-time with the
threshold crossed, or at the longest on-time, ends the on-time and counts the period for phase-open detection, or clears the count. PHASE_AOC, PHASE_SENSE_OPEN and PHASE_OPEN (from the 32nd counted period) stop a switching phase (the first a sleeping one of a burst too) with causes 3, 4 and 5;
a standby's phases are mirrored (R37).
The PHS_CLR commands clear the fault, the returned mark and the counters. Other phases keep their state (R161-R164, R182-R188). A phase fault burns the phase's Embers once (R187): with a sound PHS_EMB pair and the burned bit clear, in a controller that is no active,
the burn takes the watts from free, record 0x401; what free does not cover becomes debt, and a debt revocation takes it from the open holders in the order of prio and descending h, down to their floors, each entering ENFORCE or
WAIT; what the floors leave is uncovered (R215, R225). The burned bit is set; a burned phase burns nothing.
The model's own readings in it: notes/assumptions/1.md, 9.md, 12.md, 20.md, 26.md, 62.md. -/
def Obligations.PhaseEvents : Prop :=
  (∀ (n : Fin 48) (s : State),
    let p := s.phs.ph[n]
    let thr := (s.reg (0x20028 + 256 * n.val)).toNat % 4096
    let far (c : BitVec 12) : Nat := ((c.toNat : Int) - 2048).natAbs
    let deaf := 32 * max (p.tmg.toNat / 256 % 256) (p.tmg.toNat / 65536 % 256)
    let per := s.railPer p.car
    let rise := p.dt.toNat % 4096
    let rest := p.dt.toNat / 65536 % 4096 + 32 * (p.tmg.toNat % 256)
    let longest (len : Nat) := len - rise - rest
    let least := rise + min (max (32 * (p.tmg.toNat / 256 % 256)) p.onLeast) (per - rise - rest) + rest
    let pulsing := p.sw = true ∧ p.started = true ∧ p.pulse = true
    let due (t : Nat) : Prop := p.began < t ∧ (pulsing → p.began + least ≤ t) ∧
      (s.phs.rail[p.car].zero ≤ t → s.carrier p.car t = p.ofs % per ∨ pulsing ∧ t = p.began + least)
    let count (sense : BitVec 12) (k : Nat) : BitVec 6 :=
      if thr = 0 then p.openCnt else if thr < far p.eff ∧ deaf < k ∧ far sense < thr then satAdd p.openCnt 1 else 0
    let ended (sense : BitVec 12) (k : Nat) : PhaseSt := { p with onTime := false, openCnt := count sense k }
    let at_ (q : PhaseSt) : State := { s with phs := { s.phs with ph := s.phs.ph.set n q } }
    let others (t : State) : Prop := ∀ k : Fin 48, k ≠ n → t.phs.ph[k] = s.phs.ph[k]
    let standby := s.pr.role = .syncing ∨ s.pr.role = .synced
    let faults (c : Instr) (cause : BitVec 4) : Prop := Does c s fun t => others t ∧ t.phs.rail = s.phs.rail ∧ t.regs = s.regs ∧ t.mem = s.mem ∧
      t.phs.ph[n].fault = true ∧ t.phs.ph[n].cause = cause ∧ t.phs.ph[n].sw = false ∧ t.phs.ph[n].onTime = false ∧ t.phs.ph[n].rejoin = false ∧
      t.stk.evpend.getLsbD 8 = true
    let last (b : Nat) := if p.onTime then ended ((Config.freeWord s.freeCtr).setWidth 12) (longest (min per (b - p.began))) else p
    let closed (b : Nat) : State := if p.onTime then { at_ (last b) with freeCtr := s.freeCtr + 1 } else s
    let on (b : Nat) (q : PhaseSt) : State := { closed b with phs := { s.phs with ph := s.phs.ph.set n q } }
    let goes (b : Nat) := p.sw = false ∨ (last b).openCnt.toNat < 32
    (s.periodAt n = none → Gives (.periodStart n) s s) ∧
    (∀ t, s.periodAt n = some t → due t ∧ s.stepSpan.1 ≤ t ∧ t < s.stepSpan.2) ∧ due (s.nextPeriod n) ∧
    (∀ t, s.periodAt n = some t → ¬ goes t → Gives (.periodStart n) s (closed t)) ∧
    (∀ t w, s.periodAt n = some t → goes t → p.stopDue = some w → Gives (.periodStart n) s (State.evp (on t { last t with
      sw := false, startDue := false, stopDue := none, onTime := false, pulse := false, ipk := false, mb := none, pulses := 0,
      started := false, bounded := false }) 8)) ∧
    (∀ b, s.periodAt n = some b → goes b → p.stopDue = none → p.sw = true → p.startDue = false → Does (.periodStart n) s fun t =>
      t = { closed b with phs := t.phs, log := t.log } ∧ others t ∧ t.phs.rail = s.phs.rail ∧
      (let q := t.phs.ph[n]
       let bursts := (s.phRail n).any fun g => s.phs.rail[g].state == .burst
       let begun := on b { last b with started := true, ipk := bursts, mb := if s.isBattery n then s.batBounds else none, began := b, onLeast := 0 }
       let eff := begun.effCode n
       let both := (s.reg (0x20000 + 256 * n.val)).getLsbD 30
       let raw := begun.refCode n
       let pulse := both || decide (2048 < eff.toNat)
       let bound := decide ((s.cbcLimits n).1.toNat < raw.toNat) || decide (raw.toNat < (s.cbcLimits n).2.toNat)
       q.eff = eff ∧ q.sw = true ∧ q.dir = (both && decide (eff.toNat < 2048)) ∧ q.onTime = pulse ∧ q.pulse = pulse ∧ q.began = b ∧ q.started = true ∧ q.ipk = bursts ∧
       q.dt = s.reg (0x20004 + 256 * n.val) ∧ q.tmg = s.reg (0x20008 + 256 * n.val) ∧ q.slope = s.reg (0x20010 + 256 * n.val) ∧ q.onLeast = 0 ∧
       q.bounded = bound ∧ q.cbc = (if bound then satAdd p.cbc 1 else p.cbc) ∧ q.fault = p.fault ∧ q.aoc = p.aoc)) ∧
    (∀ b, s.periodAt n = some b → p.stopDue = none → p.sw = false → p.startDue = false → Gives (.periodStart n) s (closed b)) ∧
    (∀ (sense : BitVec 12) (on : BitVec 18),
      let most := longest (min per (s.nextPeriod n - p.began))
      let ramp := (p.slope.toNat % 4096) * on.toNat
      let crossed := if p.dir then 45000 * sense.toNat ≤ 45000 * p.eff.toNat + ramp else 45000 * p.eff.toNat ≤ 45000 * sense.toNat + ramp
      (p.onTime = true → most ≤ on.toNat → Gives (.comparatorTrip n sense on) s (at_ (ended sense most))) ∧
      (p.onTime = true → on.toNat < most → deaf ≤ on.toNat → crossed → Gives (.comparatorTrip n sense on) s (at_ (ended sense on.toNat))) ∧
      (p.onTime = false ∨ (on.toNat < most ∧ (on.toNat < deaf ∨ ¬ crossed)) → Gives (.comparatorTrip n sense on) s s)) ∧
    (∀ code : BitVec 12, let w := (s.reg (0x20020 + 256 * n.val)).toNat
      let outside := w / 65536 % 4096 < code.toNat ∨ code.toNat < w % 4096
      let sleeps := ∃ g, s.phRail n = some g ∧ s.phs.rail[g].state = .burst ∧ s.isRunning g n = true
      (p.sw = true ∨ sleeps → p.fault = false → ¬ standby → outside → faults (.phaseAoc n code) 3) ∧
      (¬ (p.sw = true ∨ sleeps) ∨ p.fault = true ∨ standby ∨ ¬ outside → Gives (.phaseAoc n code) s s)) ∧
    (p.sw = true → p.fault = false → ¬ standby → faults (.phaseSenseOpen n) 4 ∧ (32 ≤ p.openCnt.toNat → faults (.phaseOpen n) 5)) ∧
    (p.sw = false ∨ p.fault = true ∨ standby → Gives (.phaseSenseOpen n) s s ∧ Gives (.phaseOpen n) s s) ∧
    (∀ (g : Fin 16) (b : Nat), s.periodAt n = some b → p.stopDue = none → p.sw = false → p.startDue = true → p.fault = false → s.phRail n = some g →
      let r := s.phs.rail[g]
      r.state.active = true → r.state ∉ [.softStart, .softStop] ∨ r.startAt + 1 < s.now ∨ (r.startAt + 1 = s.now ∧ s.time.strobeDue = false) →
      Does (.periodStart n) s fun t => t = { closed b with phs := t.phs, log := t.log } ∧ others t ∧ t.phs.ph[n].sw = true ∧ t.phs.ph[n].startDue = false) ∧
    (∀ ini : Initiator, let a := 0x2004C + 256 * n.val
      n.val < s.nPhases → ini = .F ∨ s.mirHold a = false →
      Gives (.phsClrReturned ini n) s ((at_ { p with burned := false }).mirWr ini a 2) ∧
      Gives (.phsClrCnt ini n) s ((at_ { p with cbc := 0, aoc := 0 }).mirWr ini a 4) ∧
      (p.fault = false → Gives (.phsClrFault ini n) s (s.mirWr ini a 1)) ∧
      (p.fault = true → Does (.phsClrFault ini n) s fun t => t = { s with phs := t.phs, pr := t.pr, log := t.log } ∧ others t ∧ t.phs.rail = s.phs.rail ∧
        t.phs.ph[n].fault = false ∧ t.phs.ph[n].cause = 1 ∧ t.phs.ph[n].openCnt = 0 ∧ t.phs.ph[n].burned = p.burned))) ∧
  (∀ (n : Fin 48) (s : State), s.phs.ph[n].sw = true → s.phs.ph[n].fault = false → s.pr.role ∉ [.active, .syncing, .synced] → s.emb.frozen = false →
    let e := s.emb
    (∀ w, s.phs.ph[n].burned = false → s.pair (0x20030 + 256 * n.val) = some w → w.toNat ≤ e.free.v.toNat →
      Tells (.phaseSenseOpen n) s 0x401 3 [w, 2, 0, e.total.v - w] fun t =>
        t.phs.ph[n].burned = true ∧ t.emb.counters = [e.total.sub w, e.free.sub w, e.granted, e.transit, e.pending, e.debt.add 0] ∧
        t.emb.hold = e.hold ∧ t.emb.xfer = e.xfer ∧ t.emb.seq = e.seq + 1) ∧
    (∀ w, s.phs.ph[n].burned = false → s.pair (0x20030 + 256 * n.val) = some w → e.free.v.toNat < w.toNat →
      let b := e.free.v
      let d := w - b
      let order := (List.range 8).flatMap fun prio => (List.finRange 256).reverse.filter fun h => s.hOpen h && decide ((s.hCfg h).toNat / 2 ^ 28 % 8 = prio)
      let taken := order.foldl (fun (acc : Nat × List (Fin 256 × Nat)) h =>
        let x := min (e.hold[h].grant.v.toNat - (s.hFloor h).toNat) acc.1
        (acc.1 - x, acc.2 ++ [(h, x)])) (d.toNat, [])
      let amount (h : Fin 256) : Word := BitVec.ofNat 32 (((taken.2.find? fun m => m.1 = h).map (·.2)).getD 0)
      let all : Word := BitVec.ofNat 32 (d.toNat - taken.1)
      Tells (.phaseSenseOpen n) s 0x401 3 [w, 2, d, e.total.v - b] fun t =>
        t.phs.ph[n].burned = true ∧ t.emb.counters.map (·.v) =
          [e.total.v - b, 0, e.granted.v - all, e.transit.v, e.pending.v + all, e.debt.v + d] ∧ t.emb.xfer = e.xfer ∧
        (taken.1 ≠ 0 → t.emb.uncovered = true) ∧
        ∀ h : Fin 256, t.emb.hold[h].grant.v = e.hold[h].grant.v - amount h ∧ t.emb.hold[h].pend.v = e.hold[h].pend.v + amount h ∧
          (amount h = 0 → t.emb.hold[h] = e.hold[h]) ∧
          (amount h ≠ 0 → t.emb.hold[h].rstate = if (s.hCfg h).getLsbD 23 then .enforce else .wait)) ∧
    (s.phs.ph[n].burned = true → Does (.phaseSenseOpen n) s fun t => t.emb = e ∧ t.phs.ph[n].burned = true) ∧
    (s.phs.ph[n].burned = false → s.pair (0x20030 + 256 * n.val) = none → Does (.phaseSenseOpen n) s fun t =>
      t.emb = e ∧ t.phs.ph[n].burned = false ∧ t.sys.err.getLsbD 30 = true))

/-- Rail events (R161, R168, R172-R180): at a wrap of its carrier the offsets of the running phases come into force and on-times under way keep what has passed of them; soft start ends in RUN, soft stop
and a closed rail in OFF with its minimum off time and record 0x212, the end of a hiccup and of the off time in SOFT_START with
record 0x210; shedding takes the highest running phase, record 0x204; BURST stops the members, record 0x216; inreg is set,
record 0x211; retries return to 0. An event that is not due changes nothing.
The step of a rail at OUTPUT_STROBE (R176), of a controller that steps its rails: causes 5, 4, 2 and 3 of a fault stop, the first of them told, stop the members: to OFF from SOFT_STOP without a pending
enable, to HICCUP while retries are left, else to LATCHED, records 0x213 and 0x214. Enable and disable lead to SOFT_START, SOFT_STOP with cause 1 or
OFF, an enable in the off time or in SOFT_STOP is kept, record 0x215. In RUN the band, the mean, one rejoin or addition and the shed and burst counts (R173, R174, R179, R188); in BURST the start
of a burst and the exit to RUN, record 0x217 (R174, R175).
The model's own readings in it: notes/assumptions/1.md, 9.md, 12.md, 18.md, 29.md, 30.md, 62.md. -/
def Obligations.RailEvents : Prop :=
  ∀ (g : Fin 16) (s : State),
    let r := s.phs.rail[g]
    let base := 0x23000 + 256 * g.val
    let tss := max 1 ((s.reg (base + 8)).toNat % 2 ^ 20)
    let tsst := (s.reg (base + 12)).toNat % 2 ^ 20
    let at_ (q : RailSt) : State := { s with phs := { s.phs with rail := s.phs.rail.set g q } }
    let on := r.en = true ∧ r.inhibit = false
    let gw : Word := nw g.val
    let others (t : State) : Prop := (∀ k : Fin 16, k ≠ g → t.phs.rail[k] = s.phs.rail[k]) ∧ t.regs = s.regs ∧ t.mem = s.mem ∧ t.emb = s.emb
    let y := s.railY g
    let begins (t : State) : Prop :=
      t.phs.rail[g].state = .softStart ∧ t.phs.rail[g].entry = s.now ∧ t.phs.rail[g].startAt = s.now ∧ t.phs.rail[g].enPending = false ∧
      t.phs.rail[g].retries = r.retries ∧ t.fbx.ctx[s.xv g].prime = .enabled ∧ t.fbx.ctx[s.xv g].fault = false ∧ t.regs = s.regs ∧ t.mem = s.mem
    let off (t : State) : Prop :=
      t.phs.rail[g].state = .off ∧ t.phs.rail[g].entry = s.now ∧ t.phs.rail[g].offEnd = s.now + max 8 ((s.reg (base + 16)).toNat / 2 ^ 24) ∧
      t.phs.rail[g].inreg = false ∧ (∀ n : Fin 48, s.phs.ph[n].rail = some g → t.phs.ph[n].sw = false) ∧ t.stk.evpend.getLsbD 8 = true
    (s.wrapAt g = none → Gives (.carrierWrap g) s s) ∧
    (∀ z, s.wrapAt g = some z → r.zero < z ∧ s.carrier g z = 0 ∧ s.stepSpan.1 ≤ z ∧ z < s.stepSpan.2) ∧
    (∀ z, s.wrapAt g = some z → Does (.carrierWrap g) s fun t => t = { s with phs := { ph := t.phs.ph, rail := s.phs.rail.set g { r with zero := z } }, log := t.log } ∧
      ∀ n : Fin 48, let p := s.phs.ph[n]
        t.phs.ph[n] = if s.isRunning g n then
          { p with ofs := s.targetOfs g n, onLeast := if p.onTime then z - p.began - p.dt.toNat % 4096 else p.onLeast } else p) ∧
    (r.state = .softStart → tss ≤ s.now - r.entry → on → Gives (.softStartDone g) s
      (at_ { r with state := .run, entry := s.now, bandRun := 0, regRun := 0, shedRun := 0, burstRun := 0 })) ∧
    (r.state ≠ .softStart ∨ s.now - r.entry < tss → Gives (.softStartDone g) s s) ∧
    (r.state = .softStop → tsst ≤ s.now - r.entry →
      Tells (.softStopDone g) s 0x212 2 [gw, r.cause.setWidth 32] fun t => others t ∧ off t ∧ t.phs.rail[g].enPending = (r.en && !r.inhibit)) ∧
    (r.state ≠ .softStop ∨ s.now - r.entry < tsst → Gives (.softStopDone g) s s) ∧
    (on →
      let begun (c : Instr) : Prop := Tells c s 0x210 2 [gw, fpMax (Config.zeroChoice s.freeCtr) y 0, r.retries.setWidth 32] fun t =>
        begins t ∧ ∀ k : Fin 16, k ≠ g → t.phs.rail[k] = s.phs.rail[k]
      (r.state = .hiccup → 1000 * ((s.reg (base + 16)).toNat % 1024 + 1) ≤ s.now - r.entry → begun (.hiccupDone g)) ∧
      (r.state = .off → r.offEnd ≤ s.now → r.enPending = true → begun (.offMinExpire g))) ∧
    (¬ on → Gives (.hiccupDone g) s s ∧ Gives (.offMinExpire g) s s) ∧
    (∀ n, r.state = .run → r.shedDue = true → (s.running g).getLast? = some n →
      Tells (.phaseShed g) s 0x204 0 [nw n.val, r.im, nw ((s.running g).length - 1)] fun t => others t ∧
      t.phs.ph[n].shed = true ∧ t.phs.ph[n].startDue = false ∧ t.phs.ph[n].stopDue = (if s.phs.ph[n].sw then some 2 else none) ∧
      t.phs.rail[g] = { r with shedDue := false, shedRun := 0 } ∧ ∀ k : Fin 48, k ≠ n → t.phs.ph[k] = s.phs.ph[k]) ∧
    (r.shedDue = false → Gives (.phaseShed g) s s) ∧
    (r.state = .run → r.burstDue = true → Tells (.burstEnter g) s 0x216 0 [gw, r.im] fun t => others t ∧
      t.phs.rail[g] = { r with state := .burst, entry := s.now, burstDue := false, burstRun := 0, lastBurst := none, shedRun := 0, shedDue := false } ∧
      t.stk.evpend.getLsbD 8 = true ∧
      ∀ n : Fin 48, (s.phs.ph[n].rail = some g → t.phs.ph[n].sw = false) ∧ (s.phs.ph[n].rail ≠ some g → t.phs.ph[n] = s.phs.ph[n])) ∧
    (r.burstDue = false → Gives (.burstEnter g) s s) ∧
    (r.regDue = true → r.state = .run ∨ r.state = .burst → Gives (.railInreg g) s (State.dev (at_ { r with inreg := true, regDue := false, regRun := 0 })
      0x211 1 [gw, nw (s.now - r.startAt)])) ∧
    (r.regDue = false → Gives (.railInreg g) s s) ∧
    Gives (.retriesClear g) s (if r.retryDue then at_ { r with retries := 0, retryDue := false } else s) ∧
    (s.time.strobeDue = true → s.cycle ≤ 240 → s.pr.role ≠ .syncing → s.pr.role ≠ .synced → s.boot.halt = false →
      (∀ h, s.pr.handAt = some h → h < s.now) → s.pr.resumeAt = none →
      let healthy (n : Fin 48) : Bool := s.isHealthy g n
      let switching := r.state = .softStart ∨ r.state = .run ∨ r.state = .burst ∨ r.state = .softStop
      let ov := s.pair (base + 48)
      let causes : List Nat :=
        (if (s.nHealthy g) < max 1 ((s.reg base).toNat / 2 ^ 22 % 64) then [5] else []) ++
        (if (match ov with | some v => fpGt y v | none => true) then [4] else []) ++
        (if r.state = .softStart ∧ (tss + 3) / 4 ≤ s.now - r.entry ∧ fpLt y (fMul 0x3DCCCCCD (s.vtgt g)) = true then [2] else []) ++
        (if r.stopAct then [3] else [])
      let first := causes.headD 0
      let map : Word := Config.codeOf 0x213 2 ((causes.map (2 ^ ·)).foldl (· + ·) 0)
      let quiet := ¬ switching ∨ causes = []
      let step (P : RailSt → State → Prop) : Prop := Does .outputStrobe s fun t => P t.phs.rail[g] t
      let tells (code sev : Nat) (ws : List Word) : Prop := Tells .outputStrobe s code sev ws fun _ => True
      let stopped (t : State) : Prop := t.phs.rail[g].cause = BitVec.ofNat 4 first ∧ t.phs.rail[g].inreg = false ∧
        ∀ n : Fin 48, s.phs.ph[n].rail = some g → t.phs.ph[n].sw = false
      let softStop (r0 : Word) : Prop := step fun q t => q.cause = 1 ∧ q.retries = 0 ∧ q.inreg = false ∧
        if tsst = 0 then off t else q.state = .softStop ∧ q.entry = s.now ∧ q.r0 = r0
      let hic := s.reg (base + 16)
      let retry := r.retries.toNat < hic.toNat / 65536 % 16 ∨ hic.getLsbD 20 = true
      let pending (code : Nat) : Prop := (step fun q _ => { q with zero := r.zero } = { r with enPending := true, stopAct := false }) ∧
        (r.enPending = false → tells 0x215 1 [gw, nw code])
      (switching → causes ≠ [] →
        (r.state = .softStop → r.enPending = false → (step fun _ t => off t ∧ stopped t) ∧ tells 0x213 5 [gw, nw first, map, 0]) ∧
        (r.state ≠ .softStop ∨ r.enPending = true →
          (retry → (step fun q t => q.state = .hiccup ∧ q.entry = s.now ∧ q.retries = satAdd r.retries 1 ∧ stopped t) ∧
            tells 0x213 5 [gw, nw first, map, 5]) ∧
          (¬ retry → (step fun q t => q.state = .latched ∧ q.entry = s.now ∧ q.retries = r.retries ∧ stopped t) ∧
            tells 0x213 5 [gw, nw first, map, 6] ∧ tells 0x214 6 [gw, nw first, r.retries.setWidth 32]))) ∧
      (r.state = .off →
        (on → r.offEnd ≤ s.now → r.enPending = false → step fun q t => begins t ∧ (q.pre = fpMax true y 0 ∨ q.pre = fpMax false y 0)) ∧
        (on → s.now < r.offEnd → pending 0) ∧
        (on → r.offEnd ≤ s.now → r.enPending = true → step fun q _ => { q with zero := r.zero } = { r with stopAct := false }) ∧
        (¬ on → step fun q _ => { q with zero := r.zero } = { r with enPending := false, retries := 0, stopAct := false })) ∧
      (quiet → r.state = .softStart → (on → step fun q _ => q.state = .softStart ∧ q.entry = r.entry ∧ q.retries = r.retries) ∧ (¬ on → softStop r.ramp)) ∧
      (quiet → r.state = .run ∨ r.state = .burst → ¬ on → softStop (s.vtgt g)) ∧
      (quiet → r.state = .softStop → s.now - r.entry < tsst →
        (on → pending 4) ∧ (¬ on → step fun q _ => { q with zero := r.zero } = { r with enPending := false, stopAct := false })) ∧
      (r.state = .hiccup ∨ r.state = .latched →
        (on → step fun q _ => { q with zero := r.zero } = { r with stopAct := false }) ∧
        (¬ on → step fun q t => off t ∧ q.retries = 0 ∧ (r.state = .hiccup → q.enPending = false))) ∧
      (quiet → on → r.state = .run ∨ r.state = .burst →
        let near := fpLe (fSub (s.vtgt g) y &&& 0x7FFFFFFF) (s.reg (base + 56)) = true
        step fun q _ =>
          q.bandRun = (if near then r.bandRun + 1 else 0) ∧ q.inreg = (r.inreg && decide near) ∧
          q.regDue = (decide near && (r.regDue || !r.inreg && decide (16 ≤ r.bandRun + 1))) ∧
          q.regRun = (if near ∧ r.inreg = true then r.regRun + 1 else 0) ∧
          (near → r.inreg = true → r.regRun + 1 = 1024 → q.retryDue = true)) ∧
      (quiet → on → r.state = .run → step fun q t =>
        let near := fpLe (fSub (s.vtgt g) y &&& 0x7FFFFFFF) (s.reg (base + 56)) = true
        let cfg := s.reg base
        let mean : Word := match s.running g with
          | [] => 0
          | n :: ns => fDiv (ns.foldl (fun a m => fAdd a t.phs.ph[m].refA) t.phs.ph[n].refA) (fNat (ns.length + 1))
        let again := (List.finRange 48).find? fun n => healthy n && s.phs.ph[n].rejoin
        let spare := (List.finRange 48).find? fun n => healthy n && s.phs.ph[n].shed && !s.phs.ph[n].rejoin
        let more := if cfg.getLsbD 30 && fpGt mean (s.reg (base + 20)) then spare else none
        let joins := again <|> more
        let low := cfg.getLsbD 30 && fpLt mean (s.reg (base + 24))
        let shed := if low then r.shedRun + 1 else 0
        let idle := cfg.getLsbD 31 && r.inreg && decide near && fpLe mean (s.reg (base + 36))
        let burst := if idle then r.burstRun + 1 else 0
        let qual := (s.reg (base + 28)).toNat
        q.state = .run ∧ q.im = mean ∧ q.shedRun = shed ∧ q.burstRun = burst ∧ q.burstDue = (idle && decide (qual / 65536 ≤ burst)) ∧
        q.shedDue = (joins.isNone && low && decide (qual % 65536 ≤ shed) && decide (max 1 (cfg.toNat / 65536 % 64) < (s.running g).length)) ∧
        (∀ n : Fin 48, joins = some n → t.phs.ph[n].shed = false ∧ t.phs.ph[n].rejoin = false ∧ (t.phs.ph[n].sw || t.phs.ph[n].startDue) = true) ∧
        (∀ n : Fin 48, s.isMember g n = true → joins ≠ some n → t.phs.ph[n].shed = s.phs.ph[n].shed ∧ t.phs.ph[n].rejoin = s.phs.ph[n].rejoin)) ∧
      (quiet → on → r.state = .burst →
        let band := s.reg (base + 44)
        let cfg := (s.reg (base + 32)).toNat
        let deep := fpLt y (fSub (s.vtgt g) (fMul 0x40000000 band)) = true
        let below := fpLt y (fSub (s.vtgt g) band) = true
        let soon := ∃ k, r.lastBurst = some k ∧ s.now - k < cfg / 65536
        (deep ∨ below ∧ soon → (step fun q t => q.state = .run ∧ q.entry = s.now ∧ q.lastBurst = none ∧
            ∀ n : Fin 48, s.isRunning g n = true → (t.phs.ph[n].sw || t.phs.ph[n].startDue) = true) ∧
          tells 0x217 0 [gw, Config.codeOf 0x217 1 (if deep then 0 else 1)]) ∧
        (¬ deep → below → ¬ soon → step fun q t => q.state = .burst ∧ q.lastBurst = some s.now ∧
          ∀ n : Fin 48, s.isRunning g n = true → (s.reg (0x20000 + 256 * n.val)).getLsbD 29 = true →
            t.phs.ph[n].pulses = max 1 (cfg % 256) ∧ (t.phs.ph[n].sw || t.phs.ph[n].startDue) = true) ∧
        (¬ deep → ¬ below → step fun q _ => q.state = .burst ∧ q.lastBurst = r.lastBurst)))


/-! ### The Draft bus (R191-R210) -/

/-- Draft frames (R196-R203). A frame of a receiver that is not enabled, or is off asleep (19 R401), changes nothing. The memory errors met in the search of
DRAFT_MAP are counted and told (R29, R30), an unreadable word counts as 0. A mapped frame is seen as a wake source (19 R403), and a source whose
window has run out is declared down before it (18 R385). A frame of a source without a DRAFT_MAP entry is
counted in unmapped, a reserved shape in bad; each discarded frame posts record 0x305 with its reason. A frame of a mapped source
restarts the source's liveness, and one that repeats the last sequence number does nothing else; a skipped number is counted in gap,
record 0x30A. HEARTBEAT does no more. ANNOUNCE then waits for the next tick. CANCEL begins the ramp-out of every entry of the source
with its number, or of all; MARKER, in an entry's window, recognises its arrival; with none of either the frame is counted in stray.
DFT_CLR clears every counter.
The model's own readings in it: notes/assumptions/1.md, 20.md, 33.md. -/
def Obligations.DraftFrames : Prop :=
  ∀ (d : Fin 32) (src : Byte) (shape sq : BitVec 4) (mag : BitVec 16) (lead : BitVec 12) (s : State),
    let on := d.val < s.nDraft ∧ (s.reg (0xD0100 + 4 * d.val)).getLsbD 31 = true ∧
      (s.awake = true ∨ s.pwr.state = 2 ∧ (s.reg 0x90).getLsbD 5 = true)
    let v := (s.mapRead d src).1
    let x := (v.wakeSeen 5).declareDown d src
    let r := s.dft.rx[d]
    let count (u : State) (q : RxSt) : State := { u with dft := { u.dft with rx := u.dft.rx.set d q } }
    let bad (c : Instr) (reason : Nat) : Prop := Gives c s ((count s { r with bad := satAdd r.bad 1 }).dev 0x305 2 [nw d.val, nw reason])
    let three := [Instr.draftCancel d src lead sq, .marker d src lead sq, .heartbeat d src sq]
    let ann := Instr.announce d src shape mag lead sq
    let m := s.mapSt d src
    let seen : DftMapSt := { m with live := some s.now, down := false }
    let heard := on ∧ s.mapHolder d src ≠ none
    (¬ on → ∀ c ∈ ann :: three, Gives c s s) ∧
    (on → 5 < shape.toNat → bad ann 4) ∧
    (on → s.mapHolder d src = none → (shape.toNat ≤ 5 → Gives ann s ((count v { r with unmapped := satAdd r.unmapped 1 }).dev 0x305 2 [nw d.val, 5])) ∧
      ∀ c ∈ three, Gives c s ((count v { r with unmapped := satAdd r.unmapped 1 }).dev 0x305 2 [nw d.val, 5])) ∧
    (heard → m.seq = some sq → (shape.toNat ≤ 5 → Gives ann s (x.setMap seen)) ∧ ∀ c ∈ three, Gives c s (x.setMap seen)) ∧
    (∀ u : State, heard → m.seq ≠ some sq →
      (m.seq = none ∨ m.seq = some (sq - 1) → u = x.setMap { seen with seq := some sq }) →
      (∀ q, m.seq = some q → sq ≠ q + 1 → u = (count (x.setMap { seen with seq := some sq }) { r with gap := satAdd r.gap 1 }).dev 0x30A 2
        [nw d.val, src.setWidth 32, (q + 1).setWidth 32, sq.setWidth 32]) →
      let e := u.evp 6
      let stray (c : Instr) : Prop := Gives c s ((count e { u.dft.rx[d] with stray := satAdd r.stray 1 }).dev 0x305 2 [nw d.val, 6])
      let mine (i : Fin 64) : Prop := x.dft.pend[i].valid = true ∧ x.dft.pend[i].z = none ∧ x.dft.pend[i].d = d ∧ x.dft.pend[i].src = src
      let hit (i : Fin 64) : Prop := mine i ∧ (lead.toNat / 16 = 255 ∨ x.dft.pend[i].seq.toNat = lead.toNat % 16)
      let mark (i : Fin 64) : Prop := mine i ∧ lead.toNat / 16 = 0 ∧ x.dft.pend[i].seq.toNat = lead.toNat % 16 ∧
        s.wStart x.dft.pend[i] ≤ s.now ∧ s.now < x.dft.pend[i].a + s.wPost
      let out (i : Fin 64) (ph : BitVec 2) (z len : Nat) : PendSt :=
        { x.dft.pend[i] with phase := ph, z := some z, zTick := (s.tickAt z).setWidth 32, zLen := len }
      Gives (.heartbeat d src sq) s u ∧
      (∀ h, s.mapHolder d src = some h → shape.toNat ≤ 5 → Gives ann s { u with dft := { u.dft with queue := u.dft.queue ++
        [{ d := d, src := src, h := h, shape := shape, seq := sq, mag := mag, lead := lead, s := s.now, sTick := s.time.tick }] } }) ∧
      ((∀ i, ¬ hit i) → stray (.draftCancel d src lead sq)) ∧
      ((∃ i, hit i) → Does (.draftCancel d src lead sq) s fun t =>
        t = { e with dft := { u.dft with pend := t.dft.pend }, log := t.log } ∧
        ∀ i : Fin 64, (hit i → t.dft.pend[i] = out i 3 (s.now + 1) s.tRec) ∧ (¬ hit i → t.dft.pend[i] = x.dft.pend[i])) ∧
      ((∀ i, ¬ mark i) → stray (.marker d src lead sq)) ∧
      (∀ i : Fin 64, mark i → (∀ k : Fin 64, k < i → ¬ mark k) → Does (.marker d src lead sq) s fun t =>
        t = { e with dft := { u.dft with pend := t.dft.pend }, log := t.log } ∧ t.dft.pend = x.dft.pend.set i (if x.dft.pend[i].shape = 5 then
          { x.dft.pend[i] with arrived := true, phase := 1 } else out i 2 (max (s.now + 1) x.dft.pend[i].a) s.tHand))) ∧
    (∀ w : BitVec 64,
      let f := Instr.draftFrameInvalid d
      let read := (s.mapRead d (BitVec.ofNat 8 (w.toNat / 2 ^ 48))).1
      let crc := crc8 ((leBytes 6 (w.toNat / 256 % 2 ^ 48)).reverse) = BitVec.ofNat 8 w.toNat
      let typ := w.toNat / 2 ^ 44 % 16
      let typed := typ ≤ 3 ∧ (typ = 0 → w.toNat / 2 ^ 40 % 16 ≤ 5)
      (¬ on → Gives (f false w) s s ∧ Gives (f true w) s s) ∧
      (on → bad (f false w) 1) ∧ (on → w.toNat / 2 ^ 56 ≠ 0x9B → bad (f true w) 2) ∧
      (on → w.toNat / 2 ^ 56 = 0x9B → ¬ crc → bad (f true w) 3) ∧
      (on → w.toNat / 2 ^ 56 = 0x9B → crc → ¬ typed → bad (f true w) 4) ∧
      (on → w.toNat / 2 ^ 56 = 0x9B → crc → typed → s.mapHolder d (BitVec.ofNat 8 (w.toNat / 2 ^ 48)) = none →
        Gives (f true w) s ((count read { r with unmapped := satAdd r.unmapped 1 }).dev 0x305 2 [nw d.val, 5])) ∧
      (on → w.toNat / 2 ^ 56 = 0x9B → crc → typed → s.mapHolder d (BitVec.ofNat 8 (w.toNat / 2 ^ 48)) ≠ none → Gives (f true w) s read)) ∧
    (∀ ini : Initiator, ini = .F ∨ s.mirHold 0xD00A8 = false →
      Gives (.dftClr ini) s (State.mirWr { s with dft := { s.dft with rx := Vector.replicate 32 {} } } ini 0xD00A8 1))

/-- The pending table of the Draft manager (R199-R208). DRAFT_ACCEPT, a tick after the frame: the announced step, limited to the grant of its
holder, joins the first free entry, and a running train of its source begins its ramp-out at the arrival; a step limited to 0 or
with no free entry joins nothing. MARKER_WINDOW_OPEN, at cycle 0, opens the window and keeps the measured step's base; DRAFT_NOSHOW and
DRAFT_SRC_DOWN, hb_to ticks after the source's last frame, begin the ramp-out over t_rec; DRAFT_ENTRY_FREE frees an entry whose ramp-out has ended. Forwarded values wait
for the latch; DRAFT_FWD_STALE marks one not refreshed for 4 ticks, record 0x309. An event that is not due changes nothing.
The model's own readings in it: notes/assumptions/1.md, 18.md, 33.md, 34.md. -/
def Obligations.DraftEntries : Prop :=
  ∀ s : State,
    let t := s.dft
    let vals (c : Instr) (k : StokerSt) (P : State → Prop) : Prop := Does c s fun u =>
      u = { s with dft := { t with pend := u.dft.pend, queue := u.dft.queue, maps := u.dft.maps, trajW := u.dft.trajW, ppV := u.dft.ppV },
                   fbx := { s.fbx with ctx := u.fbx.ctx }, stk := k, log := u.log } ∧ P u
    let out (i : Fin 64) (z : Nat) : PendSt := { t.pend[i] with phase := 3, z := some z, zTick := (s.tickAt z).setWidth 32, zLen := s.tRec }
    let waits (i : Fin 64) : Prop := t.pend[i].valid = true ∧ t.pend[i].z = none
    (t.queue = [] → Gives .draftAccept s s) ∧
    (∀ q qs, t.queue = q :: qs →
      let g := s.emb.snap[(Fin.ofNat 256 q.h.toNat)].toNat
      let w : Int := 8 * q.mag.toInt
      let m : Int := if w.natAbs ≤ g then w else if w < 0 then -g else g
      let a := q.s + max 1 q.lead.toNat
      let train (i : Fin 64) : Prop := waits i ∧ t.pend[i].shape = 5 ∧ t.pend[i].d = q.d ∧ t.pend[i].src = q.src ∧ t.pend[i].a ≤ q.s + 1
      let old (i : Fin 64) (u : State) : Prop := (train i → u.dft.pend[i] = out i a) ∧ (¬ train i → u.dft.pend[i] = t.pend[i])
      (s.now ≤ q.s → Gives .draftAccept s s) ∧
      (q.s < s.now → (m = 0 ∨ ∀ i : Fin 64, t.pend[i].valid = true) → vals .draftAccept (s.evp 6).stk fun u =>
        u.dft.queue = qs ∧ u.dft.maps = t.maps ∧ ∀ i, old i u) ∧
      (∀ i : Fin 64, q.s < s.now → m ≠ 0 → t.pend[i].valid = false → (∀ k : Fin 64, k < i → t.pend[k].valid = true) →
        vals .draftAccept (s.evp 6).stk fun u => u.dft.queue = qs ∧ u.dft.maps = t.maps ∧ (∀ k, k ≠ i → old k u) ∧ u.dft.pend[i] =
          { valid := true, d := q.d, h := q.h, src := q.src, shape := q.shape, seq := q.seq, m := m, s := q.s, a := a,
            aTick := (s.tickAt a).setWidth 32 })) ∧
    (∀ i : Fin 64,
      let p := t.pend[i]
      let opens := waits i ∧ p.phase = 0 ∧ p.a - s.wPre ≤ s.now ∧ p.s < s.now
      let late := waits i ∧ p.arrived = false ∧ p.a + s.wPost ≤ s.now
      (opens → s.cycle = 0 → Gives (.markerWindowOpen i) s { s with dft := { t with pend := t.pend.set i { p with phase := 1, base := s.stepValue } } }) ∧
      (¬ opens ∨ s.cycle ≠ 0 → Gives (.markerWindowOpen i) s s) ∧
      (late → vals (.draftNoshow i) (s.evp 6).stk fun u => u.dft.queue = t.queue ∧ u.dft.maps = t.maps ∧ u.dft.pend = t.pend.set i (out i (p.a + s.wPost))) ∧
      (¬ late → Gives (.draftNoshow i) s s) ∧
      (∀ z, p.z = some z → p.valid = true → z + p.zLen ≤ s.now → Gives (.draftEntryFree i) s { s with dft := { t with pend := t.pend.set i {} } }) ∧
      (∀ z, p.z = some z → s.now < z + p.zLen → Gives (.draftEntryFree i) s s) ∧ (p.z = none → Gives (.draftEntryFree i) s s)) ∧
    (∀ (d : Fin 32) (src : Byte),
      let m := s.mapSt d src
      let mine (i : Fin 64) : Prop := waits i ∧ t.pend[i].d = d ∧ t.pend[i].src = src
      let hb := (s.reg 0xD0004).toNat / 65536 % 4096
      (∀ e, hb ≠ 0 → m.live = some e → e + hb ≤ s.now → m.down = false → vals (.draftSrcDown d src) s.stk fun u =>
        u.dft.queue = t.queue ∧ u.dft.maps = (s.setMap { m with live := none, down := true }).dft.maps ∧
        ∀ i : Fin 64, (mine i → u.dft.pend[i] = out i s.now) ∧ (¬ mine i → u.dft.pend[i] = t.pend[i])) ∧
      (m.live = none ∨ m.down = true ∨ hb = 0 ∨ (∀ e, m.live = some e → s.now < e + hb) → Gives (.draftSrcDown d src) s s)) ∧
    (∀ (p : Fin 4) (a b : Word),
      let role := (s.reg 0xD00A0).toNat / 2 ^ 30
      (s.stkLive = true → s.portUp p = true →
        Gives (.draftFwdTraj p a b) s { s with dft := { t with fwdIn := t.fwdIn ++ [(s.now, p, a, b)] } } ∧
        Gives (.draftFwdVpp p a b) s { s with dft := { t with vppIn := t.vppIn ++ [(s.now, a, b)] } }) ∧
      (s.stkLive = false ∨ s.portUp p = false → Gives (.draftFwdTraj p a b) s s ∧ Gives (.draftFwdVpp p a b) s s) ∧
      (∀ t0, role = 2 → t.fwd[p].at_ = some t0 → t0 + 4 ≤ s.now → t.fwd[p].stale = false → Gives (.draftFwdStale p) s
        (State.dev { s with dft := { t with fwd := t.fwd.set p { t.fwd[p] with stale := true } } } 0x309 4 [nw p.val])) ∧
      (∀ v, role = 1 → (s.reg 0xD00A0).toNat / 2 ^ 24 % 4 = p.val → t.vpp = some v → v.2.2 + 4 ≤ s.now → t.vppStale = false →
        Gives (.draftFwdStale p) s (State.dev { s with dft := { t with vppStale := true } } 0x309 4 [nw p.val])) ∧
      (role ≠ 1 → role ≠ 2 → Gives (.draftFwdStale p) s s))


/-! ### Thermal unit (R234-R245) -/

/-- The thermal unit (R235-R245). THM_MEAS_START starts the oldest request at cycle 0; THM_MEAS_DONE, 64 ticks later, stores the result, 0x7FFF for
a broken sensor or a value out of range, with its stamp, and evaluates it for every enabled zone the sensor belongs to: the failed
set, the zone's temperature, the highest of its members that have not failed, and the level by its thresholds or its failure setting.
A grace window that has run out acts first (18 R385). THM_GRACE_EXPIRE takes a level-1 zone to level 2. THM_SUBST replaces a member, or answers 1 to 4; THM_ZONE_DISABLE ends the zone's
throttling; THM_ZMEM_WRITE takes removed sensors out of the failed set and adds the failed ones. In a standby the unit is halted, asleep the converter
is off (19 R401).
The model's own readings in it: notes/assumptions/1.md, 20.md, 28.md, 35.md. -/
def Obligations.ThermalUnit : Prop :=
  ∀ s : State, Regs.wf s.regs = true →
    let k := s.thm
    let halted := s.pr.role = .syncing ∨ s.pr.role = .synced
    let bit (t : Fin 40) : BitVec 40 := (1 : BitVec 40) <<< t.val
    let zreg (z : Fin 8) (o : Nat) : Word := s.reg (0x40400 + 0x40 * z.val + o)
    let has (z : Fin 8) (t : Fin 40) : Prop := if t.val < 32 then (zreg z 4).getLsbD t.val = true else (zreg z 8).getLsbD (t.val - 32) = true
    let mem (z : Fin 8) : BitVec 40 := (zreg z 4).setWidth 40 ||| (zreg z 8).setWidth 40 <<< 32
    let zon (z : Fin 8) : Bool := (zreg z 0).getLsbD 31
    let grace (z : Fin 8) : Nat := 1000 * max 1 ((zreg z 0x18).toNat % 65536)
    let kept (t : State) : Prop := t.regs = s.regs ∧ t.mem = s.mem ∧ t.phs = s.phs ∧ t.bat = s.bat ∧ t.fbx = s.fbx ∧ t.cycle = s.cycle
    (k.stop = none → k.queue ≠ [] → s.cycle = 0 → ¬ halted → s.awake = true → Gives .thmMeasStart s { s with thm := { k with stop := some (s.now + 64) } }) ∧
    (k.stop ≠ none ∨ k.queue = [] ∨ s.cycle ≠ 0 ∨ halted ∨ s.awake = false → Gives .thmMeasStart s s) ∧
    (∀ (mean : Int) (brk : Bool),
      let c := Instr.thmMeasDone mean brk
      (k.stop = none ∨ k.queue = [] ∨ halted ∨ s.awake = false ∨ (∃ e, k.stop = some e ∧ s.now < e) → Gives c s s) ∧
      (∀ e t q, k.stop = some e → k.queue = t :: q → e ≤ s.now → ¬ halted → s.awake = true →
        let r : BitVec 16 := if brk = true ∨ mean < -8192 ∨ 25599 < mean then 0x7FFF else BitVec.ofInt 16 mean
        Does c s fun u => kept u ∧ u.thm.queue = q ∧ u.thm.stop = (if q = [] then none else some (s.now + 64)) ∧
          u.thm.res = k.res.set t (some r) ∧ u.thm.stamp = k.stamp.set t (s.time.tick.setWidth 32) ∧ u.thm.resAt = k.resAt.set t s.now ∧
          u.stk = (s.evp 2).stk ∧
          ∀ z : Fin 8, let was := k.zone[z]
            let due := was.grace.any fun e => decide (e ≤ s.now)
            let o : ZoneSt := if due then { was with grace := none, level := if was.level = 1 then 2 else was.level } else was
            let n := u.thm.zone[z]
            let failed := if r = 0x7FFF then o.failed ||| bit t else o.failed &&& ~~~ bit t
            let least : BitVec 2 := if (zreg z 0).toNat / 2 ^ 29 % 4 = 1 then 1 else 2
            let th (a : Nat) : Int := ((zreg z a).setWidth 16).toInt
            let best (v : BitVec 16) : Prop :=
              (∃ m : Fin 40, has z m ∧ failed.getLsbD m.val = false ∧ u.thm.res[m] = some v) ∧
              ∀ (m : Fin 40) (x : BitVec 16), has z m → failed.getLsbD m.val = false → u.thm.res[m] = some x → x.toInt ≤ v.toInt
            (zon z = false ∨ ¬ has z t → n = was) ∧
            (zon z = true → has z t → n.failed = failed ∧ (∀ v, best v → n.tz = some v) ∧
              (r = 0x7FFF → n.level = (if o.level.toNat < least.toNat then least else o.level) ∧
                n.grace = (if o.level = 0 ∧ least = 1 then some (s.now + grace z) else o.grace)) ∧
              (r ≠ 0x7FFF → failed ≠ 0 → n.level = o.level ∧ n.grace = o.grace) ∧
              (∀ v, r ≠ 0x7FFF → failed = 0 → best v →
                (th 0x10 ≤ v.toInt → n.level = 2 ∧ n.grace = none) ∧
                (v.toInt < th 0x10 → th 0x0C ≤ v.toInt → o.level = 0 → n.level = 1 ∧ n.grace = some (s.now + grace z)) ∧
                (v.toInt < th 0x10 → ¬ (th 0x0C ≤ v.toInt ∧ o.level = 0) → v.toInt < th 0x14 → o.level ≠ 0 → n.level = 0 ∧ n.grace = none) ∧
                (v.toInt < th 0x10 → ¬ (th 0x0C ≤ v.toInt ∧ o.level = 0) → ¬ (v.toInt < th 0x14 ∧ o.level ≠ 0) →
                  n.level = o.level ∧ n.grace = o.grace))))) ∧
    (∀ z : Fin 8, let o := k.zone[z]
      let others (t : State) : Prop := kept t ∧ t.thm.queue = k.queue ∧ t.thm.res = k.res ∧ ∀ x : Fin 8, x ≠ z → t.thm.zone[x] = k.zone[x]
      (∀ e, o.grace = some e → e ≤ s.now → zon z = true → ¬ halted → Does (.thmGraceExpire z) s fun t => others t ∧
        t.thm.zone[z] = { o with grace := none, level := if o.level = 1 then 2 else o.level } ∧ (o.level ≠ 1 → t.emb = s.emb)) ∧
      (o.grace = none ∨ zon z = false ∨ halted → Gives (.thmGraceExpire z) s s) ∧ (∀ e, o.grace = some e → s.now < e → Gives (.thmGraceExpire z) s s) ∧
      ∀ ini : Initiator,
        let writes (c : Instr) (as : List (Nat × Word)) (q : ZoneSt) : Prop := Does c s fun t =>
          t = { s with regs := t.regs, thm := { k with zone := k.zone.set z q }, pr := t.pr, log := t.log } ∧
          (∀ p ∈ as, t.reg p.1 = p.2) ∧ ∀ a, (∀ p ∈ as, p.1 ≠ a) → t.reg a = s.reg a
        let a (o : Nat) : Nat := 0x40400 + 0x40 * z.val + o
        (ini = .F ∨ s.mirHold (a 0) = false → writes (.thmZoneDisable ini z) [(a 0, zreg z 0 &&& 0x6000FFFF)] (if zon z then {} else o)) ∧
        (∀ (hi : Bool) (v : Word), ini = .F ∨ s.mirHold (a (if hi then 8 else 4)) = false →
          let new : BitVec 40 := if hi then (zreg z 4).setWidth 40 ||| (v &&& 0xFF).setWidth 40 <<< 32 else v.setWidth 40 ||| (zreg z 8).setWidth 40 <<< 32
          Does (.thmZmemWrite ini z hi v) s fun t =>
            t = { s with regs := t.regs, thm := { k with zone := k.zone.set z t.thm.zone[z] }, pr := t.pr, log := t.log } ∧
            t.reg (a (if hi then 8 else 4)) = (if hi then v &&& 0xFF else v) ∧ (∀ b, b ≠ a (if hi then 8 else 4) → t.reg b = s.reg b) ∧
            (t.thm.zone[z] = { o with failed := t.thm.zone[z].failed } ∧ ∀ m : Fin 40, t.thm.zone[z].failed.getLsbD m.val =
              (new.getLsbD m.val && (o.failed.getLsbD m.val || !(mem z).getLsbD m.val && k.res[m] == some 0x7FFF)))) ∧
        (∀ tn goes : BitVec 6, ini = .F ∨ s.mirHold 0x40010 = false →
          let bad (t : BitVec 6) : Prop := ∃ m : Fin 40, t.toNat = m.val ∧ k.res[m] = some 0x7FFF
          let isMem (t : BitVec 6) : Bool := (mem z).getLsbD t.toNat
          let res (n : BitVec 3) : Prop := Does (.thmSubst ini z tn goes) s fun t => t = { s with thm := { k with substRes := n }, pr := t.pr, log := t.log }
          (isMem goes = false → res 1) ∧ (isMem goes = true → 40 ≤ tn.toNat → res 4) ∧
          (isMem goes = true → tn.toNat < 40 → isMem tn = true → res 2) ∧
          (isMem goes = true → tn.toNat < 40 → isMem tn = false → bad tn → res 3) ∧
          (isMem goes = true → tn.toNat < 40 → isMem tn = false → ¬ bad tn →
            let new : BitVec 40 := (mem z &&& ~~~ ((1 : BitVec 40) <<< goes.toNat)) ||| (1 : BitVec 40) <<< tn.toNat
            Does (.thmSubst ini z tn goes) s fun t => t = { s with
                regs := t.regs, pr := t.pr, log := t.log,
                thm := { k with substRes := 0, zone := k.zone.set z { o with failed := o.failed &&& new } } } ∧
              t.reg (a 4) = new.setWidth 32 ∧ t.reg (a 8) = (new >>> 32).setWidth 32 ∧
              ∀ b, b ≠ a 4 → b ≠ a 8 → t.reg b = s.reg b)))


/-! ### AC loss and the battery unit (R194, R246-R262) -/

/-- AC loss and the battery unit. ACFAIL_ASSERT at cycle 0: the input's feed-forward values apply at once; ACFAIL_CLEAR begins their release ramp,
ACFAIL_RAMP_END ends it at 0; after cycle 0 the values of the tick stand (R17, R194). A BAT_QSET pair takes its value at the next cycle 0 (R248); a full anchor sets the zero point a
capacity below the snapshot (R251), from cycle 240 on and with the values of cycle 0 as every result of a boundary (R250); a cutoff takes the charge as the new zero point (R253); a rest point with a valid reading sets
the learning reference, and with one far enough from the reference accepts, holds or averages a capacity (R255-R257); the learning
commands (R258, R260); ship mode is entered and left a tick after its request, or by CHGDET (R261).
The model's own readings in it: notes/assumptions/1.md, 20.md, 36.md. -/
def Obligations.AcLossAndBattery : Prop :=
  ∀ s : State, Regs.wf s.regs = true →
    (∀ i : Fin 2,
      let d := s.dft
      let ent (e : Fin 4) : Word := s.reg (0xD0060 + 8 * e.val)
      let sole (e : Fin 4) (x : Fin 128) : Prop := (ent e).getLsbD 31 = true ∧ (ent e).toNat % 128 = x.val ∧ (ent e).toNat / 256 % 2 = i.val ∧
        ∀ f : Fin 4, f ≠ e → (ent f).getLsbD 31 = true → (ent f).toNat % 128 ≠ x.val
      let acts (c : Instr) (acf : BitVec 2) (r : Option Nat) (P : State → Prop) : Prop := Does c s fun t => (s.cycle = 0 → P t) ∧
        (s.cycle ≠ 0 → t.fbx = s.fbx ∧ t.dft.trajW = d.trajW ∧ t.dft.ppV = d.ppV) ∧
        t = { s with dft := { d with acf := acf, rel := d.rel.set i r, trajW := t.dft.trajW, ppV := t.dft.ppV },
                     fbx := { s.fbx with ctx := t.fbx.ctx }, log := t.log }
      (s.pins.acfail.getLsbD i.val = true → d.acf.getLsbD i.val = false → acts (.acfailAssert i) (d.acf ||| (1 : BitVec 2) <<< i.val) none
        fun t => ∀ e x, sole e x → t.fbx.ctx[x].acff = fTake (s.reg (0xD0064 + 8 * e.val))) ∧
      (s.pins.acfail.getLsbD i.val = false ∨ d.acf.getLsbD i.val = true → Gives (.acfailAssert i) s s) ∧
      (s.pins.acfail.getLsbD i.val = false → d.acf.getLsbD i.val = true →
        acts (.acfailClear i) (d.acf &&& ~~~ ((1 : BitVec 2) <<< i.val)) (some s.now) fun _ => True) ∧
      (s.pins.acfail.getLsbD i.val = true ∨ d.acf.getLsbD i.val = false → Gives (.acfailClear i) s s) ∧
      (∀ u, d.rel[i] = some u → u + max 1 ((s.reg 0xD0080).toNat % 65536) ≤ s.now → acts (.acfailRampEnd i) d.acf none
        fun t => d.acf.getLsbD i.val = false → ∀ e x, sole e x → t.fbx.ctx[x].acff = 0) ∧
      (∀ u, d.rel[i] = some u → s.now < u + max 1 ((s.reg 0xD0080).toNat % 65536) → Gives (.acfailRampEnd i) s s) ∧
      (d.rel[i] = none → Gives (.acfailRampEnd i) s s)) ∧
    (∀ (b : Fin 16) (ini : Initiator),
      let k := s.bat.str[b]
      let a (o : Nat) : Nat := 0x51000 + 0x100 * b.val + o
      let goes (q : StrSt) : State := { s with bat := { s.bat with str := s.bat.str.set b q } }
      let look := (s.table 2 (k.ev.scfg.toNat / 65536 % 256)).map fun t => s.curveRead (Config.codeOf 0x019 1 9) t k.mean
      let seen := (look.map (·.1)).getD s
      let after (b : State) (c : Instr) (q : StrSt) : Prop := Does c s fun u => u = { b with bat := (goes q).bat, phs := u.phs, log := u.log } ∧
        u.phs.rail = s.phs.rail ∧ (q.cutoff = k.cutoff → u.phs = s.phs)
      let logs := after s
      let released := k.cutoff && decide ((k.ev.qrel.toNat : Int) ≤ (k.snap.v - k.ev.empty).toInt)
      let charge (v : BitVec 64) : Q64 := { v := v, c := ~~~ v }
      let here := b.val < s.nStrings ∧ (ini = .F ∨ s.pr.role ≠ .active)
      (here → (∀ p ∈ s.openPairs, p.base ≠ a 0x20) → ∀ v : BitVec 64, Gives (.batQset ini b v) s (State.mirWr (State.mirWr (State.mirWr (State.mirWr
        (goes { k with qset := v, qsetDue := some (v, s.now) }) ini (a 0x20) (v.setWidth 32)) ini (a 0x24) ((v >>> 32).setWidth 32))
        ini (a 0x28) (~~~ v.setWidth 32)) ini (a 0x2C) (~~~ (v >>> 32).setWidth 32))) ∧
      (∀ v t, k.qsetDue = some (v, t) → s.cycle = 0 → t < s.now → logs (.batQsetApply b)
        { k with q := charge (v + k.chg), qsetDue := none, qBad := false, since := 0, hasRef := false }) ∧
      (k.qsetDue = none ∨ s.cycle ≠ 0 → Gives (.batQsetApply b) s s) ∧
      (k.fullDue = true → k.evalDue = false → let e := k.snap.v - k.ev.cap
        logs (.batFullAnchor b) { k with
          fullDue := false, empty := e, soc := 0x3F800000, lastFull := true, anchored := true
          below := false, belowQ := 0, susHigh := false, cutoff := k.cutoff && (k.restDue || !released) }) ∧
      (k.fullDue = false ∨ k.evalDue = true → Gives (.batFullAnchor b) s s) ∧
      (k.cutDue = true → k.qBad = false → k.evalDue = false → s.time.strobeDue = false → logs (.batCutoff b) { k with
        cutDue := false, cutoff := true, soc := 0, empty := k.q.v, susLow := k.susLow || k.below
        susHigh := k.susHigh || (!k.below && decide (0 < (k.q.v - k.empty).toInt)), below := false, anchored := true, lastFull := false }) ∧
      (k.cutDue = false ∨ k.qBad = true ∨ k.evalDue = true ∨ s.time.strobeDue = true → Gives (.batCutoff b) s s) ∧
      (k.restDue = false ∨ k.fullDue = true ∨ k.evalDue = true → Gives (.batRest b) s s) ∧
      (k.restDue = true → k.fullDue = false → k.evalDue = false →
        let o := look.map (·.2.1.1)
        let rests (q : StrSt) : Prop := after seen (.batRest b) { q with restDue := false, cutoff := k.cutoff && !released }
        (o = none ∨ s.restReason b o ≠ 0 → rests k) ∧
        (∀ σ, o = some σ → s.restReason b o = 0 →
          let newRef (q : StrSt) : StrSt := { q with hasRef := true, refSigma := σ, refQ := k.snap.v, refTick := s.time.tick.setWidth 32 }
          let ds := fSub σ k.refSigma &&& 0x7FFFFFFF
          let dist (x y : Int) : Word := fNat (x - y).natAbs
          let c := (fNearest (fDiv (fNat (k.snap.v - k.refQ).toInt.natAbs) ds)).toNat
          let takes (n : BitVec 64) : StrSt := newRef { k with
            empty := if k.lastFull then k.empty + (k.ev.cap - n) else k.empty, cap := n, learned := true, wbPend := true
            held := false, susLow := false, susHigh := false }
          let close (x : Nat) (part : Word) : Prop := fpLe (dist c x) (fMul part (fNat x)) = true
          (k.hasRef = false → rests (newRef k)) ∧
          (k.hasRef = true → fpLt ds 0x3ECCCCCD = true → rests (if fpGt (fSub σ 0x3F000000 &&& 0x7FFFFFFF) (fSub k.refSigma 0x3F000000 &&& 0x7FFFFFFF)
            then newRef k else k)) ∧
          (k.hasRef = true → fpLt ds 0x3ECCCCCD = false →
            (k.learned = false ∨ close k.ev.cap.toNat 0x3E800000 → rests (takes (BitVec.ofNat 64 c))) ∧
            (k.learned = true → ¬ close k.ev.cap.toNat 0x3E800000 →
              (k.held = true → close k.heldC.toNat 0x3DCCCCCD →
                rests (takes (BitVec.ofNat 64 ((c + k.heldC.toNat) / 2 + if (c + k.heldC.toNat) % 4 = 3 then 1 else 0)))) ∧
              (k.held = false ∨ ¬ close k.heldC.toNat 0x3DCCCCCD → rests (newRef { k with heldC := BitVec.ofNat 64 c, held := true })))))) ∧
      (here → Does (.batLcmdReset ini b) s (fun u =>
          u = { goes { k with hasRef := false, held := false, learned := false, susLow := false, susHigh := false } with pr := u.pr, log := u.log }) ∧
        Gives (.batLcmdWbAck ini b) s ((goes { k with wbPend := false }).mirWr ini (a 0xA8) 0x40000000))) ∧
    (∀ (ini : Initiator) (key : Byte),
      let b := s.bat
      let rail := s.reg 0xD0084
      let off := rail.getLsbD 31 = false ∨ s.phs.rail[(Fin.ofNat 16 (rail.toNat / 65536 % 16))].state = .off
      let asks (c : Instr) (P : State → Prop) : Prop := s.nStrings ≠ 0 → ini = .F ∨ s.mirHold 0x50008 = false → Does c s fun u => P u ∧
        u = { s with regs := u.regs, bat := u.bat, sys := u.sys, pr := u.pr, log := u.log } ∧ (∀ x, x ≠ 0x50008 → u.reg x = s.reg x)
      let clears (c : Instr) : Prop := Does c s fun u => u = { s with
        log := u.log
        bat := { b with ship := false, releaseReq := none, wakeReset := if s.pwr.state = 3 then some (s.now + 1) else b.wakeReset } }
      let full := 1000 * max 1 ((s.reg 0x50008).toNat / 256 % 256)
      asks (.batShipEnter ini key) (fun u => (key = 0xA5 → off → u.bat = { b with enterReq := some s.now } ∧ u.sys = s.sys ∧ u.reg 0x50008 = s.reg 0x50008 &&& 0xFF00) ∧
        (key ≠ 0xA5 ∨ ¬ off → u.bat = b ∧ u.sys = (s.flagErr 29 0x50008).sys ∧ u.regs = s.regs)) ∧
      asks (.batShipRelease ini) (fun u => u.bat = { b with releaseReq := some s.now } ∧ u.sys = s.sys ∧ u.reg 0x50008 = s.reg 0x50008 &&& 0xFF00) ∧
      (∀ t, b.enterReq = some t → t < s.now → s.cycle = 0 →
        Gives .shipModeSet s (State.dev { s with bat := { b with enterReq := none, ship := true } } 0x60B 4 [])) ∧
      (b.enterReq = none ∨ s.cycle ≠ 0 → Gives .shipModeSet s s) ∧
      (∀ t, b.releaseReq = some t → t < s.now → s.cycle = 0 → clears .shipModeClear) ∧
      (b.releaseReq = none ∨ s.cycle ≠ 0 → Gives .shipModeClear s s) ∧
      (b.ship = true → b.chgRun = full → clears .chgdetWake) ∧ (b.ship = false ∨ b.chgRun ≠ full → Gives .chgdetWake s s))


/-! ### Recorder and black box (R263-R277) -/

/-- The recorder and the black box. LOG_RING_WRITE moves the oldest staged record into the ring, a pad before it where it would pass
the ring's end, and carries out its evictions; no other byte of memory changes (R266, R267, R271). RATE_WINDOW_EXPIRE closes an expired
window and posts its summary with the reserved sequence number (R268, R269); a write of LOG_RATE closes the window, the summary due in the
next tick. LOG_REL releases up to the position it names, or sets rel_err (R274); LOG_CLR clears the counters (R272). PFAIL starts a
commit of header, status, rails, Embers, eight string pages, log pages and the seal, or skips it where the energy does not cover
13 pages; records of the tick's first cycle that come after event 0x051 wait, and no log page holds them; an error of the log SRAM is counted
as the pages are read (R29, R30); BB_DONE ends it (R275, R276). BB_CONSUMED_WRITE offers the consumed word until the queue has room and the gate takes it (R277, R284).
The model's own readings in it: notes/assumptions/1.md, 12.md, 20.md, 37.md, 38.md. -/
def Obligations.RecorderAndBlackBox : Prop :=
  ∀ s : State, Regs.wf s.regs = true → Memory.wf s.mem = true → s.log.posted = [] → s.log.held = [] →
    let l := s.log
    let b := l.bb
    let ring := 262144
    (l.staged = [] → Gives .logRingWrite s s) ∧
    (∀ r rs, l.staged = r :: rs → r.evict ≤ l.ents.length →
      let n := r.bytes.length
      let gap := if l.head % ring + n > ring then ring - l.head % ring else 0
      let pos := l.head + gap
      let a := 0x400000 + pos % ring
      let gone := l.ents.take r.evict
      Does .logRingWrite s fun t => t = { s with mem := t.mem, freeCtr := t.freeCtr, log := t.log } ∧
        (∀ (k : Nat) (h : k < n), t.byte (a + k) = r.bytes[k]) ∧
        (∀ x, (x < a ∨ a + n ≤ x) → (gap = 0 ∨ x < 0x400000 + l.head % ring ∨ 0x400000 + ring ≤ x) → t.byte x = s.byte x) ∧
        t.log = { l with staged := rs, head := pos + n, tail := t.log.tail, rel := t.log.rel,
                         ents := l.ents.drop r.evict ++ (if gap = 0 then [] else [{ pos := l.head, len := gap, sev := 0, real := false }]) ++
                           [{ pos := pos, len := n, sev := r.sev, real := true, seq := r.seq }],
                         evict := BitVec.ofNat 32 (min (l.evict.toNat + (gone.filter (·.real)).length) (2 ^ 32 - 1)) } ∧
        t.log.tail = (match gone.getLast? with | some e => e.pos + e.len | none => l.tail) ∧ (r.evict = 0 → t.log.rel = l.rel)) ∧
    (∀ i : Fin 64,
      let w := l.win[i]
      let r0 := s.reg (0x70100 + 16 * i.val)
      let closed : LogSt := { l with win := l.win.set i {} }
      (w.isOpen = false ∨ s.now < w.stop → (∀ o ∈ l.owed, o.entry ≠ i ∨ s.now < o.due) → Gives (.rateWindowExpire i) s s) ∧
      (w.isOpen = true → w.stop ≤ s.now → (∀ o ∈ l.owed, o.entry ≠ i ∨ s.now < o.due) →
        (w.supp = 0 → Gives (.rateWindowExpire i) s { s with log := closed }) ∧
        (w.supp ≠ 0 → Gives (.rateWindowExpire i) s { s with log := { closed with posted := [
          { org := .summary, code := r0.setWidth 12, sev := w.sev, stamp := s.time.tick, sumSeq := some w.reserved,
            payloads := [[BitVec.ofNat 32 w.supp, w.first.setWidth 32, w.last.setWidth 32,
              (w.first >>> 32).setWidth 32 ||| (w.last >>> 32).setWidth 32 <<< 16]] }] } })) ∧
      (∀ (ini : Initiator) (w1 : Bool) (v : Word),
        let a := 0x70100 + 16 * i.val + (if w1 then 4 else 0)
        let owes : OwedSummary := { entry := i, due := s.now + 1, code := r0.setWidth 12, sev := w.sev, supp := w.supp, reserved := w.reserved,
                                    first := w.first, last := w.last }
        Does (.logRateWrite ini i w1 v) s fun t => t = { s with
          regs := t.regs
          log := { closed with owed := if w.isOpen = true ∧ w.supp ≠ 0 then l.owed ++ [owes] else l.owed } } ∧
          t.reg a = v &&& (if w1 then 0x00FFFFFF else 0x80FF0FFF) ∧ ∀ x, x ≠ a → t.reg x = s.reg x)) ∧
    (∀ (ini : Initiator) (v : Word),
      let o := v.toNat % ring
      let all := l.tail < l.head ∧ o = l.head % ring
      (all → Gives (.logRelWrite ini v) s { s with log := { l with rel := l.head } }) ∧
      (∀ p, ¬ all → l.tail ≤ p → p < l.tail + ring → p % ring = o →
        (p ≤ l.head → Gives (.logRelWrite ini v) s { s with log := { l with rel := max l.rel p } }) ∧
        (l.head < p → Gives (.logRelWrite ini v) s { s with log := { l with relErr := true } })) ∧
      Gives (.logClr ini) s { s with log := { l with drop := Vector.replicate 8 0, supp := 0, evict := 0 } }) ∧
    (let cfg := s.reg 0x70500
     let due := s.pins.pfail = true ∧ b.armed = true ∧ cfg.getLsbD 31 = true ∧ s.cycle = 0 ∧ b.busy = false
     let covered := (s.nvm.ng - s.nvLeft) / 10
     let logPages := cfg.toNat / 65536 % 4096
     let k := min (covered - 13) logPages
     let toB := b.valid && !b.slot
     let sq := b.seq + 1
     let first := (s.reg 0x70504).toNat % 32768 + (if toB then 13 + logPages else 0)
     (¬ due → Gives .pfail s s) ∧
     (due → covered < 13 → Does .pfail s fun t => t = { s with log := t.log } ∧ t.log.bb = { b with armed := false, skipped := true }) ∧
     (due → 13 ≤ covered → Does .pfail s fun t =>
       t = { s with log := t.log, sys := { s.sys with eccCorr := t.sys.eccCorr, eccUncorr := t.sys.eccUncorr, eccAddr := t.sys.eccAddr } } ∧
       (s.ecc = [] → t = { s with log := t.log }) ∧
       t.log.bb = { b with armed := false, busy := true, cSlot := toB, cSeq := sq, cPages := BitVec.ofNat 12 k, sealDone := false, queue := t.log.bb.queue } ∧
       t.log.bb.queue.map (·.1) = (List.range (13 + k)).map (first + ·) ∧ (∀ p ∈ t.log.bb.queue, p.2.length = 64) ∧
       (∃ q qs z, t.log.bb.queue = q :: qs ∧ t.log.bb.queue.getLast? = some z ∧
         q.2.take 24 = wBytes 0x4B424258 ++ wBytes 1 ++ wBytes sq ++ wBytes (BitVec.ofNat 32 (13 + k)) ++ leBytes 6 s.time.tick.toNat ++
           leBytes 2 s.time.epoch.toNat ∧ z.2.drop 56 = wBytes sq ++ wBytes (~~~ sq)))) ∧
    (b.busy = true → b.sealDone = true → Gives .bbDone s (State.dev { s with log := { l with bb := {
      b with busy := false, sealDone := false, finished := true, valid := true, slot := b.cSlot, seq := b.cSeq, pages := b.cPages } } } 0x052 3
      [if b.cSlot then 1 else 0, b.cSeq, BitVec.ofNat 32 (13 + b.cPages.toNat)])) ∧
    (b.busy = false ∨ b.sealDone = false → Gives .bbDone s s) ∧
    (b.consumeDue = none → Gives .bbConsumedWrite s s) ∧
    (16 ≤ s.nvPages → Gives .bbConsumedWrite s s) ∧
    (∀ page, b.consumeDue = some page → s.nvPages < 16 →
      (s.pins.pfail = false → s.gQ + 3 ≤ s.nvm.ng → Gives .bbConsumedWrite s { s with
        nvm := { s.nvm with gateOk := true, queue := s.nvm.queue ++ [{ src := .consumed, off := 64 * page + 56, data := wBytes 1 ++ wBytes (~~~ 1) }] }
        log := { l with bb := { b with consumeDue := none } } }) ∧
      (s.pins.pfail = true ∨ s.nvm.ng < s.gQ + 3 → Gives .bbConsumedWrite s (if s.nvm.gateOk then
        State.dev { s with nvm := { s.nvm with gateOk := false } } 0x703 4 [BitVec.ofNat 32 s.nvm.ng, BitVec.ofNat 32 s.gQ, 3, 0] else s)))


/-! ### Non-volatile store (R278-R298) -/

/-- The non-volatile store. NVM_CMD queues the page buffer, or answers 3 locked, 2 queue full, 1 refused by the gate (R285, R287).
PAGE_WRITE_START starts the first waiting write, a black-box page before others, if the hold-up covers it, or abandons every one
(R284, R288); none starts asleep (19 R401) or while a reset waits (19 R391); PAGE_WRITE_DONE puts its bytes into the store, and no others. MRAM_SCRUB reads one group in an idle tick and queues a
corrected one (R283); neither it nor a validation runs asleep. UNLOCK_R, UNLOCK_W, LOCK and DEFINE act on a partition with the passwords presented, which are cleared; a fifth
wrong password locks it out; a DEFINE answers 4 where it would overlap a partition or a DEFINE that waits (R291, R293-R295). NVM_AB_REGISTER registers a record or refuses it; AB_VALIDATION_DONE takes the valid copy
with the newest sequence number, and a journal is cleared by a queued write of one group (R296-R298).
The model's own readings in it: notes/assumptions/1.md, 19.md, 20.md, 39.md. -/
def Obligations.NonVolatileStore : Prop :=
  ∀ s : State, Memory.wf s.mem = true → s.log.posted = [] → s.log.held = [] →
    let n := s.nvm
    let goes (m : NvmSt) : State := { s with nvm := m }
    let refused (m : NvmSt) (g : Nat) : State := if n.gateOk then
      State.dev (goes { m with gateOk := false }) 0x703 4 [BitVec.ofNat 32 n.ng, BitVec.ofNat 32 s.gQ, BitVec.ofNat 32 g, 0] else goes m
    let gate (g : Nat) : Prop := s.pins.pfail = false ∧ s.gQ + g ≤ n.ng
    let host (ini : Initiator) : Bool := ini == .spi || ini == .twi0
    (∀ (ini : Initiator) (page : BitVec 15),
      let c := Instr.nvmCmd ini page
      let first := s.abAt page.toNat false
      let need := match first with | some (i, _) => 10 * (n.ab[i].n.toNat + 1) + 2 | none => 10
      let src : NvSrc := match ini with | .F => .thF | .B => .thB | .spi => .spi | .twi0 => .twi0
      let data : List Byte := (List.range 16).flatMap fun w => wBytes (s.reg (0x80040 + 4 * w))
      let locked := s.nvLocked ini page.toNat = true
      (locked → Gives c s (goes { n with cmdRes := 3 })) ∧ (¬ locked → 16 ≤ s.nvPages → Gives c s (goes { n with cmdRes := 2 })) ∧
      (¬ locked → s.nvPages < 16 → ¬ gate need → Gives c s (refused { n with cmdRes := 1 } need)) ∧
      (¬ locked → s.nvPages < 16 → gate need → Gives c s (goes { n with cmdRes := 0, gateOk := true, queue := n.queue ++
        [{ src := src, off := 64 * page.toNat, data := data, abFirst := first, abLast := (s.abAt page.toNat true).map (·.1) }] }))) ∧
    (n.cur ≠ none ∨ (n.queue = [] ∧ s.log.bb.queue = []) ∨ s.awake = false ∨ s.boot.rstPend ≠ none → Gives .pageWriteStart s s) ∧
    (∀ (w : NvWrite) (q : List NvWrite) (bq : List (Nat × List Byte)), n.cur = none → s.awake = true → s.boot.rstPend = none →
      (s.log.bb.queue = [] ∧ bq = [] ∧ n.queue = w :: q ∨ (∃ p, s.log.bb.queue = p :: bq ∧
        w = { src := .blackBox 0 (bq.length == 0), off := 64 * p.1, data := p.2 } ∧ n.queue = q)) →
      (w.groups ≤ n.ng → Gives .pageWriteStart s { s with
        log := { s.log with bb := { s.log.bb with queue := bq } }
        nvm := { n with
          cur := some w, queue := q, curAt := s.now, curCycle := s.cycle,
          marker := some (BitVec.ofNat 15 (w.off / 64), s.time.tick.setWidth 32),
          journal := match w.abFirst with | some (i, b) => n.journal.set i (some { copyB := b, tick := s.time.tick }) | none => n.journal } }) ∧
      (n.ng < w.groups → Does .pageWriteStart s fun t =>
        t = { goes { n with queue := [], defs := [], aband := satAdd n.aband 1, gateOk := false } with
              log := t.log, stk := (s.evp 3).stk } ∧ t.log.bb.queue = [] ∧
        t.log.bb.busy = (s.log.bb.busy && s.log.bb.queue.isEmpty))) ∧
    (∀ w, n.cur = some w → s.boot.rstPend = none →
      (s.now < n.curAt + w.groups → Gives .pageWriteDone s s) ∧
      (n.curAt + w.groups ≤ s.now → Does .pageWriteDone s fun t =>
        t = { s with mem := t.mem, ecc := t.ecc, nvm := t.nvm, stk := (s.evp 3).stk, log := t.log } ∧
        t.nvm.cur = none ∧ t.nvm.marker = none ∧ t.nvm.queue = n.queue ∧ t.nvm.ab = n.ab ∧
        (let past := match w.abLast with | some i => n.journal.set i none | none => n.journal
         ((∀ i, w.src ≠ .journalClear i) → t.nvm.journal = past) ∧ ∀ i, w.src = .journalClear i → t.nvm.journal = past.set i none) ∧
        (0x1FFC00 ≤ w.off → t.mem = s.mem) ∧
        (w.off < 0x1FFC00 → ∀ x, let a := 0x10000000 + w.off
          t.byte x = if a ≤ x ∧ x < a + w.data.length then w.data.getD (x - a) 0 else s.byte x) ∧
        (∀ k, w.src = .blackBox k true → t.log.bb = { s.log.bb with sealDone := true }) ∧
        ((∀ k, w.src ≠ .blackBox k true) → t.log.bb = s.log.bb) ∧
        ((∀ i, w.src ≠ .define i) → t.nvm.part = n.part ∧ t.nvm.sysPart = n.sysPart) ∧
        (∀ i d, w.src = .define i → (n.defs.find? fun x => x.1 = i) = some (i, d) → t.nvm.sysPart = n.sysPart.set i (some d) ∧
          t.nvm.part = n.part.set i { n.part[i] with
            en := d.en, rpw := d.rpw, wpw := d.wpw, first := d.first, count := d.count, rdPw := d.rdPw, wrPw := d.wrPw,
            unlHostR := false, unlHostW := false, unlStkR := false, unlStkW := false }))) ∧
    (let ivl := (s.reg 0x80004).toNat % 65536
     let due := ivl ≠ 0 ∧ s.awake = true ∧ s.pins.pfail = false ∧ n.cur = none ∧ n.queue = [] ∧ s.log.bb.queue = [] ∧ n.scrubAt + ivl ≤ s.now
     let g := n.scrubPos % 262144
     let a := 0x10000000 + 8 * g
     let m : NvmSt := { n with scrubPos := (g + 1) % 262144, scrubAt := s.now }
     (¬ due → Gives .mramScrub s s) ∧ (due → sget s.ecc a = none → Gives .mramScrub s (goes m)) ∧
     (due → sget s.ecc a = some .uncorr → Does .mramScrub s fun t =>
        t = { s with nvm := { m with uncorr := true, errAddr := if n.uncorr || n.denied then n.errAddr else BitVec.ofNat 32 a }, log := t.log }) ∧
     (due → sget s.ecc a = some .corr → Does .mramScrub s fun t => t = { s with nvm := t.nvm, log := t.log } ∧
        t.nvm.corrCnt = satAdd n.corrCnt 1 ∧ t.nvm.scrubPos = m.scrubPos ∧
        t.nvm.queue = (if 3 ≤ n.ng then [{ src := .scrub, off := 8 * g, data := (List.range 8).map fun k => s.byte (a + k) }] else []))) ∧
    (∀ (ini : Initiator) (i : Fin 8),
      let p := n.part[i]
      let ends (m : NvmSt) (r : BitVec 3) : State := goes { m with pres := r, pw := Vector.replicate 6 0 }
      let put (q : PartSt) : NvmSt := { n with part := n.part.set i q }
      let given (k : Nat) : BitVec 64 := (n.pw[(Fin.ofNat 6 (k + 1))]).setWidth 64 <<< 32 ||| (n.pw[(Fin.ofNat 6 k)]).setWidth 64
      let rule (c : Instr) (needs : Bool) (pw : BitVec 64) (opened : PartSt) : Prop :=
        (p.lockout = true → Gives c s (ends n 2)) ∧ (p.lockout = false → needs = false → Gives c s (ends n 0)) ∧
        (p.lockout = false → needs = true → given 0 = pw → Gives c s (ends (put opened) 0)) ∧
        (p.lockout = false → needs = true → given 0 ≠ pw → Does c s fun t => t = { s with nvm := t.nvm, log := t.log } ∧ t.nvm =
          (ends (put (if p.fails + 1 = 5 then
            { p with fails := 5, lockout := true, unlHostR := false, unlHostW := false, unlStkR := false, unlStkW := false }
            else { p with fails := p.fails + 1 })) 1).nvm)
      rule (.unlockR ini i) p.rpw p.rdPw (if host ini then { p with unlHostR := true } else { p with unlStkR := true }) ∧
      rule (.unlockW ini i) p.wpw p.wrPw (if host ini then { p with unlHostW := true } else { p with unlStkW := true }) ∧
      Gives (.lock ini i) s (ends (put (if host ini then { p with unlHostR := false, unlHostW := false } else
        { p with unlStkR := false, unlStkW := false })) 0) ∧
      (let w := s.reg 0x80120
       let d : PartDef := { en := w.getLsbD 31, rpw := w.getLsbD 30, wpw := w.getLsbD 29, first := w.setWidth 15, count := (s.reg 0x80124).setWidth 16,
                            rdPw := given 2, wrPw := given 4 }
       let stop := d.first.toNat + d.count.toNat
       let shut := p.en = true ∧ p.wpw = true ∧ (if host ini then p.unlHostW else p.unlStkW) = false
       let bad := d.count = 0 ∨ 32752 < stop ∨ ∃ j : Fin 8, j ≠ i ∧ n.part[j].en = true ∧
         d.first.toNat < n.part[j].first.toNat + n.part[j].count.toNat ∧ n.part[j].first.toNat < stop
       let bad := bad ∨ ∃ q ∈ n.defs, q.1 ≠ i ∧ q.2.en = true ∧
         d.first.toNat < q.2.first.toNat + q.2.count.toNat ∧ q.2.first.toNat < stop
       let full := 16 ≤ s.nvPages ∨ ∃ x ∈ n.defs, x.1 = i
       (shut → Gives (.define ini i) s (ends n 3)) ∧ (¬ shut → bad → Gives (.define ini i) s (ends n 4)) ∧
       (¬ shut → ¬ bad → full → Gives (.define ini i) s (ends n 6)) ∧
       (¬ shut → ¬ bad → ¬ full → gate 10 → Gives (.define ini i) s (ends { n with
         gateOk := true, defs := n.defs ++ [(i, d)], queue := n.queue ++ [{ src := .define i, off := 64 * (32752 + i.val), data := List.replicate 64 0 }] } 0)) ∧
       (¬ shut → ¬ bad → ¬ full → ¬ gate 10 → Gives (.define ini i) s (refused { n with pres := 5, pw := Vector.replicate 6 0 } 10)))) ∧
    (∀ (ini : Initiator) (i : Fin 16) (k : BitVec 3) (pa : BitVec 15),
      let r := n.ab[i]
      let c := Instr.nvmAbRegister ini i k pa
      let len := k.toNat + 1
      let meet (x y m : Nat) : Prop := x < y + m ∧ y < x + len
      let a := pa.toNat
      let b := r.pageB.toNat
      let clash := ∃ j : Fin 16, j ≠ i ∧ n.ab[j].en = true ∧ let m := n.ab[j].n.toNat + 1
        meet a n.ab[j].pageA.toNat m ∨ meet a n.ab[j].pageB.toNat m ∨ meet b n.ab[j].pageA.toNat m ∨ meet b n.ab[j].pageB.toNat m
      let bad := 32752 < a + len ∨ 32752 < b + len ∨ meet a b len ∨ clash
      let q : AbSt := { r with n := k, pageA := pa }
      let new : AbSt := { q with en := true, busy := true, winner := 0, validA := false, validB := false, gap := false, seq := 0 }
      (r.en = true → Gives c s (s.flagErr 29 (0x80400 + 16 * i.val))) ∧
      (r.en = false → bad → Gives c s (goes { n with ab := n.ab.set i q, regErr := true })) ∧
      (r.en = false → ¬ bad → Gives c s (goes { n with ab := n.ab.set i new })) ∧
      (r.busy = false ∨ n.cur ≠ none ∨ s.awake = false → Gives (.abValidationDone i) s s) ∧
      (r.busy = true → n.cur = none → s.awake = true →
        let va := s.copySeq r.pageA.toNat (r.n.toNat + 1)
        let vb := s.copySeq r.pageB.toNat (r.n.toNat + 1)
        let newer (x y : Word) : Prop := 1 ≤ (y - x).toNat ∧ (y - x).toNat < 2 ^ 31
        Does (.abValidationDone i) s fun t => t = { s with nvm := t.nvm, log := t.log } ∧ (∀ j, j ≠ i → t.nvm.ab[j] = n.ab[j]) ∧
          t.nvm.part = n.part ∧ t.nvm.journal = n.journal ∧
          (let u := t.nvm.ab[i]
           u.busy = false ∧ u.validA = va.isSome ∧ u.validB = vb.isSome ∧ u.n = r.n ∧ u.pageA = r.pageA ∧ u.pageB = r.pageB ∧
           (va = none → vb = none → u.winner = 0 ∧ u.seq = 0) ∧ (∀ x, va = some x → vb = none → u.winner = 1 ∧ u.seq = x) ∧
           (∀ y, va = none → vb = some y → u.winner = 2 ∧ u.seq = y) ∧
           (∀ x y, va = some x → vb = some y → (newer x y → u.winner = 2 ∧ u.seq = y) ∧ (¬ newer x y → u.winner = 1 ∧ u.seq = x)) ∧
           (n.journal[i] = none → t.nvm.queue = n.queue ∧ u.gap = r.gap) ∧
           (∀ x, n.journal[i] = some x → u.gap = (if u.winner = (if x.copyB then 2 else 1) then r.gap else true) ∧
             t.nvm.queue = if s.nvPages < 16 ∧ s.pins.pfail = false ∧ s.gQ + 3 ≤ n.ng then n.queue ++
               [{ src := .journalClear i, off := 64 * 32761 + 8 * i.val, data := List.replicate 8 0 }] else n.queue))))

/-! ### Fuse array (R299-R313) -/

/-- The fuse array. PROGRAM: 1 busy, 2 wrong key, 3 PFAIL_N, 4 write-locked, 5 sealed, 6 a set bit would have to clear, or programming
begins, 0 tries acting as 8 (R311). OTP_PROGRAM_DONE: the attempts, the last reading, the status 0, 3 or 7, a verified lock word in
force at once (R308, R312); the fuses pulsed are blown in both copies where the word is verified, elsewhere which of them is a free value
(R299, R312; 9.md); a command that a system reset stops short of its limit ends with no status and no record (19 R391). SCREEN and, 512 ticks later, OTP_SCREEN_DONE: the marginal words and their number (R313).
The model's own readings in it: notes/assumptions/1.md, 20.md, 40.md. -/
def Obligations.FuseArray : Prop :=
  ∀ s : State, s.boot.rstPend = none →
    let o := s.otp
    let goes (u : OtpSt) : State := { s with otp := u }
    let ended (u : OtpSt) (att st : BitVec 4) : OtpSt := { u with cmd := none, att := att, status := st }
    (∀ (ini : Initiator) (key : Byte) (tries : BitVec 4) (w : Byte) (rest : Word),
      let c := Instr.program ini key tries w rest
      let sense : Word := o.copyA[(Fin.ofNat 256 w.toNat)] ||| o.copyB[(Fin.ofNat 256 w.toNat)]
      let r : Fin 16 := Fin.ofNat 16 (w.toNat / 16)
      let lockw : Word := o.data[(240 : Fin 256)]
      let target := s.reg 0x90008
      (o.cmd ≠ none → Gives c s (goes { o with status := 1 }) ∧ (Gives (.screen ini key) s (goes { o with status := 1 }))) ∧
      (o.cmd = none → key ≠ 0x5A → Gives c s (goes (ended o 0 2)) ∧ Gives (.screen ini key) s s) ∧
      (o.cmd = none → key = 0x5A → Gives (.screen ini key) s (goes { o with cmd := some .screen, cmdAt := s.now, cmdPfail := false, cmdStop := 0 }) ∧
        (s.pins.pfail = true → Gives c s (goes (ended o 0 3))) ∧ (s.pins.pfail = false →
          (lockw.getLsbD r.val = true → Gives c s (goes (ended o 0 4))) ∧ (lockw.getLsbD r.val = false →
            (o.region[r] = 2 → Gives c s (goes (ended o 0 5))) ∧ (o.region[r] ≠ 2 →
              (sense &&& ~~~ target ≠ 0 → Gives c s (goes (ended o 0 6))) ∧
              (sense &&& ~~~ target = 0 → Gives c s (goes { o with
                cmd := some (.program w (if tries = 0 then 8 else tries.toNat) target), cmdAt := s.now, cmdPfail := false, cmdStop := 0 }))))))) ∧
    (∀ (att : BitVec 4) (rd : Word) (ok : Bool),
      let c := Instr.otpProgramDone att rd ok
      (∀ w lim target, o.cmd = some (.program w lim target) →
        let due := 1 ≤ att.toNat ∧ att.toNat ≤ lim ∧ o.cmdAt + 24 * att.toNat ≤ s.now ∧ (ok = true → target &&& ~~~ rd = 0) ∧
          (ok = false → att.toNat = lim ∨ att.toNat = o.cmdStop) ∧ (o.cmdStop = 0 ∨ att.toNat ≤ o.cmdStop)
        let stopped := o.cmdPfail = true ∧ o.cmdStop = att.toNat
        let k : Fin 256 := Fin.ofNat 256 w.toNat
        let a : Word := (if ok then target else target &&& Config.freeWord s.freeCtr) ||| rd
        let b : Word := if ok then target else target &&& Config.freeWord (s.freeCtr + 1)
        let done (st : BitVec 4) : State := { s with freeCtr := if ok then s.freeCtr else s.freeCtr + 2, otp := { ended o att st with
          copyA := o.copyA.set k (o.copyA[k] ||| a), copyB := o.copyB.set k (o.copyB[k] ||| b), rd := rd,
          data := if ok = true ∧ w = 240 then o.data.set (240 : Fin 256) (o.data[(240 : Fin 256)] ||| target) else o.data } }
        (¬ due → Gives c s s) ∧ (due → stopped → Gives c s (done 3)) ∧
        (due → ¬ stopped → ok = true → Gives c s (done 0)) ∧
        (due → ¬ stopped → ok = false → att.toNat ≠ lim → Gives c s (done o.status)) ∧
        (due → ¬ stopped → ok = false → att.toNat = lim → Gives c s (State.dev (done 7) 0x712 5 [w.setWidth 32, target, rd]))) ∧
      (o.cmd = none ∨ o.cmd = some .screen → Gives c s s)) ∧
    (∀ (marg : List Byte) (sgl : BitVec 9),
      let c := Instr.otpScreenDone marg sgl
      (o.cmd = some .screen → o.cmdAt + 512 ≤ s.now → Does c s fun t =>
        t = { s with
          otp := { o with cmd := none, status := 0, screenSgl := sgl, screenMap := t.otp.screenMap, screenMarg := t.otp.screenMarg }
          log := t.log } ∧
        (∀ w : Fin 256, t.otp.screenMap.getLsbD w.val = decide (BitVec.ofNat 8 w.val ∈ marg)) ∧
        t.otp.screenMarg = BitVec.ofNat 9 ((List.range 256).filter fun w => decide (BitVec.ofNat 8 w ∈ marg)).length) ∧
      (o.cmd ≠ some .screen ∨ s.now < o.cmdAt + 512 → Gives c s s))

/-! ### PMBus target (R316, R319, R321-R329) -/

/-- Commands of TWI0 and of PMBUS_MAP. A port that is no enabled target, or sleeps, answers nothing; what TWI0 answers is seen as a wake
source (19 R403). A read waits until every committed write has run (R321) and gives its bytes and a PEC byte: the status registers,
the identity, the pointer, the bytes at the pointer, TICK and epoch, or a map entry. A write waits while the queue of eight is full; one
with a wrong or missing PEC sets pec_err and STATUS_CML bit 5, one of a wrong length bit 6, an unknown code bit 7, and none of them does
more; a good one joins the host queue, a written status register or CLEAR_FAULTS as any other, and HOST_COMMAND_EXEC runs the oldest
once the mirror's queue has room for all its words (R321, R326-R328, R356). The pointer is for good once its transaction ends in STOP, and kept aside until then (R319). A byte that is not
acknowledged is marked (R30, R322, R326); of a block cut short it is free whether one was. An alert response releases ALERT_N. A code
that TWI0 handles itself acts as its own command, and a wrong form of it sets bit 6 (R326).
The model's own readings in it: notes/assumptions/1.md, 9.md, 42.md, 43.md, 59.md. -/
def Obligations.PmbusCommands : Prop :=
  ∀ s : State, Regs.wf s.regs = true →
    let h := s.host
    let ans := (s.reg 0xA0000).getLsbD 31 = true ∧ (s.reg 0xA0000).getLsbD 30 = true ∧ s.twi[(0 : Fin 3)].asleep = false
    let addr (u : State) (i : Fin 3) : Nat := if i = 0 then 0x58 + u.host.straps.toNat else (u.reg (0xA0000 + 0x1000 * i.val)).toNat % 128
    let req (u : State) (i : Fin 3) : Bool := (u.reg (0xA0000 + 0x1000 * i.val)).getLsbD 27
    -- a transaction ends: the bytes given, whether a byte was not acknowledged, and in STOP or not
    let ends (i : Fin 3) (no stop : Bool) (k : HostSt) (u : State) : State := { u with
      host := if i = 0 then { u.host with saved := if stop then none else some (k.saved.getD (k.ptr, k.rlen)) } else u.host
      twi := u.twi.set i { u.twi[i] with nack := no, busAt := u.now } }
    let gives (bs : List Byte) (u : State) : State := { u with host := { u.host with out := bs } }
    let cml (b : Byte) (u : State) : State := { u with host := { u.host with stCml := u.host.stCml ||| b } }
    -- reads, every queued write before them
    let d := (s.wakeSeen 0).hostDrain
    let served := d.host.queue = []
    let block (bs : List Byte) : List Byte := BitVec.ofNat 8 bs.length :: bs
    let withPec (u : State) (i : Fin 3) (code : Byte) (bs : List Byte) : List Byte :=
      bs ++ [crc8 ([BitVec.ofNat 8 (2 * addr u i), code, BitVec.ofNat 8 (2 * addr u i + 1)] ++ bs)]
    let reads (c : Instr) (u : State) : Prop := (¬ ans → Gives c s s) ∧ (ans → ¬ served → Gives c s d) ∧ (ans → served → Gives c s u)
    let shows (c : Instr) (code : Byte) (bs : List Byte) : Prop := reads c (ends 0 false true h (gives (withPec d 0 code bs) d))
    -- writes, the oldest run to make room for them
    let w := if 8 ≤ h.queue.length then (s.wakeSeen 0).hostExec else s.wakeSeen 0
    let k := w.host
    let full := 8 ≤ k.queue.length
    let writes (c : Instr) (P : Prop) : Prop := (¬ ans → Gives c s s) ∧ (ans → full → Gives c s w) ∧ (ans → ¬ full → P)
    let goodPec (u : State) (i : Fin 3) (code : Byte) (blk : Bool) (bs : List Byte) (pec : Option Byte) (must : Bool) : Prop := match pec with
      | some p => p = crc8 ([BitVec.ofNat 8 (2 * addr u i), code] ++ (if blk then [BitVec.ofNat 8 bs.length] else []) ++ bs)
      | none => must = false
    let badPec (c : Instr) (u : State) (i : Fin 3) (pec : Option Byte) (stop : Bool) : Prop := Does c s fun t =>
      let v := cml 0x20 (ends i pec.isSome stop u.host u)
      t = { v with freeCtr := t.freeCtr, log := t.log, twi := v.twi.set i { v.twi[i] with pecErr := true } }
    let push (t : HostTxn) (on : Word) (u : State) : State := { u with
      host := { u.host with queue := u.host.queue ++ [t], ptr := u.host.ptr + on }
      stk := if u.host.queue = [] then (u.evp 10).stk else u.stk }
    let bad (c : Instr) (b : Byte) (stop : Bool) : Prop := Gives c s (ends 0 true stop k (cml b w))
    -- a block cut short: its count may have been right, and then only STOP shows the fault
    let drawn (u : State) : State := { u with freeCtr := u.freeCtr + 1 }
    let freeBit (u : State) : Bool := (Config.freeWord u.freeCtr).getLsbD 0
    let cut (c : Instr) (stop : Bool) : Prop := Gives c s (ends 0 (freeBit w) stop k (cml 0x40 (drawn w)))
    let takes (c : Instr) (code : Byte) (blk : Bool) (bs : List Byte) (pec : Option Byte) (t : HostTxn) (on : Word) : Prop :=
      (goodPec w 0 code blk bs pec (req w 0) → Gives c s (ends 0 false true k (push t on w))) ∧
      (¬ goodPec w 0 code blk bs pec (req w 0) → badPec c w 0 pec true)
    let put (c : Instr) (code : Byte) (bs : List Byte) (pec : Option Byte) (v : BitVec 16) : Prop :=
      writes c (takes c code false bs pec (.status code v) 0)
    (h.queue = [] → d = s.wakeSeen 0) ∧
    (∀ pec : Option Byte,
      put (.clearFaults pec) 0x03 [] pec 0 ∧
      (∀ v : Byte, put (.statusByte (some v) pec) 0x78 [v] pec (v.setWidth 16) ∧ put (.statusTemperature (some v) pec) 0x7D [v] pec (v.setWidth 16) ∧
        put (.statusCml (some v) pec) 0x7E [v] pec (v.setWidth 16) ∧ put (.statusMfrSpecific (some v) pec) 0x80 [v] pec (v.setWidth 16)) ∧
      (∀ v : BitVec 16, put (.statusWord (some v) pec) 0x79 (leBytes 2 v.toNat) pec v) ∧
      shows (.statusByte none pec) 0x78 [d.host.stWord.setWidth 8] ∧
      shows (.statusWord none pec) 0x79 [d.host.stWord.setWidth 8, (d.host.stWord >>> 8).setWidth 8] ∧
      shows (.statusTemperature none pec) 0x7D [d.host.stTemp] ∧ shows (.statusCml none pec) 0x7E [d.host.stCml] ∧
      shows (.statusMfrSpecific none pec) 0x80 [(d.reg 0xA0044).setWidth 8]) ∧
    shows .pmbusRevision 0x98 [0x33] ∧ shows .mfrId 0x99 [9, 0x54, 0x52, 0x45, 0x4C, 0x44, 0x45, 0x4C, 0x4F, 0x53] ∧
    shows .mfrModel 0x9A ([6, 0x53, 0x58, 0x39, 0x36] ++ (if d.otp.part = 0x9648 then [0x34, 0x38] else if d.otp.part = 0x9632 then [0x33, 0x32]
      else if d.otp.part = 0x9616 then [0x31, 0x36] else [0x2D, 0x2D])) ∧
    shows .mfrTick 0xD3 (8 :: (leBytes 6 d.time.tick.toNat ++ leBytes 2 d.time.epoch.toNat)) ∧
    (∀ pec, shows (.mfrEmb none pec) 0xD2 (4 :: wBytes (d.embRead 0x58))) ∧
    (∀ (pec : Option Byte) (stop : Bool),
      reads (.mfrAddr none pec stop) (ends 0 false stop d.host (gives (withPec d 0 0xD0 (5 :: (wBytes d.host.ptr ++ [d.host.rlen]))) d)) ∧
      reads (.mfrData none pec stop) (
        let n := d.host.rlen.toNat
        let r := d.rdWords d.host.ptr.toNat (n / 4)
        let u : State := { r.1 with host := { r.1.host with ptr := r.1.host.ptr + BitVec.ofNat 32 n } }
        if d.host.ptr.toNat % 4 ≠ 0 then ends 0 true stop d.host (cml 0x40 d)
        else ends 0 r.2.2 stop d.host (gives (withPec r.1 0 0xD1 (block r.2.1)) u))) ∧
    (∀ (bs : List Byte) (pec : Option Byte) (stop : Bool),
      (let n := (bs.getD 4 0).toNat
       let sized := bs.length = 5 ∧ 4 ≤ n ∧ n ≤ 32 ∧ n % 4 = 0
       let good := goodPec w 0 0xD0 true bs pec (req w 0 && stop)
       let c := Instr.mfrAddr (some bs) pec stop
       writes c ((bs.length < 5 → cut c stop) ∧ (5 ≤ bs.length → ¬ sized → bad c 0x40 stop) ∧ (sized → ¬ good → badPec c w 0 pec stop) ∧
         (sized → good → Gives c s (ends 0 false stop k { w with
           host := { k with ptr := BitVec.ofNat 32 (leNat (bs.take 4)), rlen := BitVec.ofNat 8 n } })))) ∧
      (let fits := k.ptr.toNat % 4 = 0 ∧ 4 ≤ bs.length ∧ bs.length ≤ 32 ∧ bs.length % 4 = 0
       let c := Instr.mfrData (some bs) pec stop
       writes c ((k.ptr.toNat % 4 ≠ 0 ∨ 32 < bs.length → bad c 0x40 stop) ∧
         (k.ptr.toNat % 4 = 0 → bs.length ≤ 32 → ¬ fits → cut c stop) ∧
         (fits → stop = false → Gives c s { w with host := { k with saved := some (k.saved.getD (k.ptr, k.rlen)) } }) ∧
         (fits → stop = true → takes c 0xD1 true bs pec (.words k.ptr (wordsOf bs)) (BitVec.ofNat 32 bs.length)))) ∧
      (let fits := bs.length = 8 ∧ leNat ((bs.drop 2).take 2) = 0
       let c := Instr.mfrEmb (some bs) pec
       writes c ((bs.length < 8 → cut c true) ∧ (8 ≤ bs.length → ¬ fits → bad c 0x40 true) ∧
         (fits → takes c 0xD2 true bs pec (.emb (bs.getD 0 0) (bs.getD 1 0) (BitVec.ofNat 32 (leNat (bs.drop 4)))) 0)))) ∧
    (ans → s.alertN = true → Does .alertResponse s fun t => t = { s with host := { h with released := true, out := t.host.out }, log := t.log, freeCtr := t.freeCtr } ∧
      ∃ b : Byte, t.host.out = [b, crc8 [0x19, b]] ∧ b.toNat / 2 = addr s 0) ∧
    (¬ ans ∨ s.alertN = false → Gives .alertResponse s s) ∧
    (h.queue = [] → Gives .hostCommandExec s s) ∧
    (∀ t q, h.queue = t :: q →
      let e : HostSt := { h with queue := q }
      let u : State := { s with host := e }
      (s.txnHold t = true → s.pr.role = .active ∧ Gives .hostCommandExec s s) ∧
      (s.txnHold t = false →
        (∀ a ws, t = .words a ws → Gives .hostCommandExec s
          (ws.zipIdx.foldl (fun (u : State) p => u.hostWr .twi0 ((a.toNat + 4 * p.2) % 2 ^ 32) 4 p.1) u)) ∧
        (∀ a n v, t = .poke a n v → Gives .hostCommandExec s (u.hostWr .twi0 a.toNat n v)) ∧
        (∀ a bs, t = .block a bs → Gives .hostCommandExec s (u.wrBlock a.toNat bs.length bs)) ∧
        (∀ op g x, t = .emb op g x → Gives .hostCommandExec s ((u.hostWr .twi0 0x60050 4 x).hostWr .twi0 0x60054 4
          (if op.toNat < 16 then op.setWidth 32 <<< 28 ||| g.setWidth 32 else 0))) ∧
        (∀ v : BitVec 16,
          let to_ (code : Byte) (e' : HostSt) : Prop := t = .status code v → Gives .hostCommandExec s { s with host := e' }
          to_ 0x03 { e with stWord := 0, stTemp := 0, stCml := 0 } ∧ to_ 0x78 { e with stWord := e.stWord &&& ~~~ (v &&& 0xFF) } ∧
          to_ 0x79 { e with stWord := e.stWord &&& ~~~ v } ∧ to_ 0x7D { e with stTemp := e.stTemp &&& ~~~ (v.setWidth 8) } ∧
          to_ 0x7E { e with stCml := e.stCml &&& ~~~ (v.setWidth 8) } ∧
          (t = .status 0x80 v → Does .hostCommandExec s fun r => r = { u with regs := r.regs, log := r.log } ∧
            r.reg 0xA0044 = s.reg 0xA0044 &&& ~~~ (v.setWidth 32) ∧ ∀ a, a ≠ 0xA0044 → r.reg a = s.reg a)))) ∧
    (∀ (i : Fin 3) (code : Byte) (pec : Option Byte),
      let c (b : Option (List Byte)) : Instr := .pmbusMapCommand i code b pec
      let fixed := i = 0 ∧ code ∈ ([0x03, 0x78, 0x79, 0x7D, 0x7E, 0x80, 0x98, 0x99, 0x9A, 0xD0, 0xD1, 0xD2, 0xD3] : List Byte)
      let on := s.answers i = true ∧ ¬ fixed
      let same (b : Option (List Byte)) (x : Instr) : Prop := exec (c b) s = exec x s
      (s.answers i = false → ∀ b, Gives (c b) s s) ∧
      (s.answers i = true → i = 0 →
        (code = 0x03 → reads (c none) (ends 0 false true d.host (gives [0xFF] d))) ∧
        (code = 0x78 → same none (.statusByte none pec)) ∧ (code = 0x79 → same none (.statusWord none pec)) ∧
        (code = 0x7D → same none (.statusTemperature none pec)) ∧ (code = 0x7E → same none (.statusCml none pec)) ∧
        (code = 0x80 → same none (.statusMfrSpecific none pec)) ∧ (code = 0x98 → same none .pmbusRevision) ∧
        (code = 0x99 → same none .mfrId) ∧ (code = 0x9A → same none .mfrModel) ∧ (code = 0xD3 → same none .mfrTick) ∧
        (code = 0xD2 → ∀ b, same b (.mfrEmb b pec)) ∧ (code = 0xD1 → ∀ b, same b (.mfrData b pec true)) ∧ (code = 0xD0 → ∀ b, same b (.mfrAddr b pec true)) ∧
        (∀ bs,
          let sized (n : Nat) : Prop := (bs.length = n → writes (c (some bs)) (takes (c (some bs)) code false bs pec (.status code (BitVec.ofNat 16 (leNat bs))) 0)) ∧
            (bs.length ≠ n → writes (c (some bs)) (Gives (c (some bs)) s (ends 0 (decide (n ≤ bs.length)) true k (cml 0x40 w))))
          (code = 0x03 → sized 0) ∧ (code = 0x79 → sized 2) ∧ (code ∈ ([0x78, 0x7D, 0x7E, 0x80] : List Byte) → sized 1) ∧
          (code ∈ ([0x98, 0x99, 0x9A, 0xD3] : List Byte) → writes (c (some bs)) (bad (c (some bs)) 0x40 true)))) ∧
      (on → i = 0 → ¬ served → Gives (c none) s d) ∧ (on → i = 0 → full → ∀ bs, Gives (c (some bs)) s w) ∧
      (on → (i = 0 → served) →
        let e := (if i = 0 then d else s).mapEnt i code
        let read (u : State) (bs : List Byte) (no : Bool) : Prop := Gives (c none) s (ends i no true h (gives (withPec u i code bs) u))
        (e.2 = none → Gives (c none) s (ends i false true h (gives [0xFF] e.1))) ∧
        (∀ m, e.2 = some m →
          let rd := m.flags.getLsbD 0
          let blk := m.flags.getLsbD 2
          (rd = false → read e.1 (List.replicate (max 1 m.len) 0xFF) false) ∧
          (rd = true → blk = true → let r := e.1.rdBlock m.addr m.len; read r.1 (block r.2.1) r.2.2) ∧
          (rd = true → blk = false → let r := e.1.hostRd .twi0 m.addr m.len
            read r.1 (if m.xform = 0 then (wBytes r.2.1).take m.len else leBytes 2 (toLinear m.xform m.expo r.2.1).toNat) (r.2.2 == .memErr)))) ∧
      (on → (i = 0 → ¬ full) → ∀ bs,
        let e := (if i = 0 then w else s).mapEnt i code
        (e.2 = none → Gives (c (some bs)) s (ends i true true h (cml 0x80 e.1))) ∧
        (∀ m, e.2 = some m →
          let t : HostTxn := if m.flags.getLsbD 2 then .block (BitVec.ofNat 32 m.addr) bs else .poke (BitVec.ofNat 32 m.addr) m.len
            (if m.xform = 0 then BitVec.ofNat 32 (leNat bs) else ofLinear m.xform m.expo (BitVec.ofNat 16 (leNat bs)))
          (i ≠ 0 ∧ s.txnHold t = true → Gives (c (some bs)) s s) ∧
          (i = 0 ∨ s.txnHold t = false →
            let wr := m.flags.getLsbD 1
            let blk := m.flags.getLsbD 2
            let want := if blk = true ∨ m.xform = 0 then m.len else 2
            let fits := wr = true ∧ bs.length = want
            let good := goodPec e.1 i code blk bs pec (req e.1 i || m.flags.getLsbD 3)
            let short := wr = true ∧ blk = true ∧ bs.length < want
            (short → Gives (c (some bs)) s (ends i (freeBit e.1) true h (cml 0x40 (drawn e.1)))) ∧
            (¬ fits → ¬ short → Gives (c (some bs)) s (ends i (!(wr && !blk && decide (bs.length < want))) true h (cml 0x40 e.1))) ∧
            (fits → ¬ good → badPec (c (some bs)) e.1 i pec true) ∧
            (fits → good → Gives (c (some bs)) s (ends i false true h (if i = 0 then push t 0 e.1 else e.1.runTxn t)))))))

/-! ### Two-wire ports and SPI (R314-R325, R417) -/

/-- The two-wire ports and the SPI port. A go on TWI_CX_CMD starts the transaction, or answers 6 busy, 7 no controller, 8 wrong length
(R324), and waits on TWI2 behind an enforcement write (R325); TWI_CX_DONE ends one that is on the bus with its status, a read's bytes in the buffer, its length, and the error flag of statuses 3 and 5; ARBITRATION_RETRY
counts a loss (R324, R325). A START out of place, a stretch timeout and a self reset set and count their flags and STATUS_CML bit 1; a wake
ends sleep; a stretch timeout, after 2,000 ticks with nothing on the bus, or a self reset, after 25,000, ends what the port had under way
(18 R386), a byte of its own stretch not acknowledged, and a controller clears the bus by at most nine clocks
(R315, R317-R320). SPI READ gives the words from the aligned address up; WRITE queues up to 16 words unless some wait;
STATUS tells whether any wait; SPI_WRITE_APPLY writes them in order (R417).
The model's own readings in it: notes/assumptions/1.md, 41.md, 44.md. -/
def Obligations.TwoWireAndSpi : Prop :=
  ∀ s : State, Regs.wf s.regs = true →
    let cmlOn (i : Fin 3) (u : State) : State := if i = 0 then { u with host := { u.host with stCml := u.host.stCml ||| 2 } } else u
    (∀ i : Fin 3,
      let s' := if i = 2 then s.cxKick else s
      let b := s'.twi[i]
      let onto (q : TwiSt) : State := { s' with twi := s'.twi.set i q }
      let back (u : State) : State := match s.host.saved with
        | some p => if i = 0 then { u with host := { u.host with ptr := p.1, rlen := p.2, saved := none } } else u
        | none => u
      let broken (q : TwiSt) : TwiSt := { q with cx := none, cxLoss := 0, cxOn := false, status := 4, busAt := s.now }
      let k := s.twi[i]
      let cfg := s.reg (0xA0000 + 0x1000 * i.val)
      let retries := cfg.toNat / 65536 % 256
      let drive := b.cxOn = true ∨ (i = 2 ∧ s.enfOnBus = true)
      let goes (q : TwiSt) : State := { s with twi := s.twi.set i q }
      (∀ (ini : Initiator) (pec : Bool) (addr : BitVec 7) (code : Byte) (len : BitVec 6),
        let drives := cfg.getLsbD 31 = true ∧ cfg.getLsbD 29 = true ∧ s.yetHalted = false ∧ (s.pr.role ≠ .failed ∧ s.pwr.state ≠ 3 ∨ i = 0)
        let all : List (Nat × Instr) := [(0, .sendByte ini i pec addr code len), (1, .writeByte ini i pec addr code len),
          (2, .writeWord ini i pec addr code len), (3, .blockWrite ini i pec addr code len), (4, .receiveByte ini i pec addr code len),
          (5, .readByte ini i pec addr code len), (6, .readWord ini i pec addr code len), (7, .blockRead ini i pec addr code len)]
        ∀ p ∈ all,
          let long := p.1 = 3 ∧ (len = 0 ∨ 32 < len.toNat)
          (k.cx ≠ none → Gives p.2 s (goes { k with status := 6 })) ∧
          (k.cx = none → ¬ drives → Gives p.2 s (goes { k with cxLoss := 0, cxOn := false, status := 7, busAt := s.now })) ∧
          (k.cx = none → drives → long → Gives p.2 s (goes { k with cxLoss := 0, cxOn := false, status := 8, busAt := s.now })) ∧
          (k.cx = none → drives → ¬ long → Gives p.2 s
            (goes { k with cx := some { proto := BitVec.ofNat 3 p.1, pec := pec, addr := addr, code := code, len := len }, cxLoss := 0,
                           cxOn := decide (i ≠ 2) || !(s.enfOnBus || s.enfWaits), busAt := s.now }))) ∧
      (∀ (st : BitVec 4) (rx : List Byte),
        let c := Instr.twiCxDone i st rx
        (b.cx = none ∨ b.cxOn = false → Gives c s s') ∧
        ∀ x, b.cx = some x → b.cxOn = true →
          let rds := 4 ≤ x.proto.toNat
          let n := rx.length
          let full := if x.proto.toNat < 4 then n = 0 else if x.proto.toNat ≤ 5 then n = 1 else if x.proto = 6 then n = 2 else 1 ≤ n ∧ n ≤ 32
          let due := st = 0 ∧ full ∨ st = 1 ∨ st = 2 ∨ st = 4 ∨ (st = 3 ∧ retries ≤ b.cxLoss) ∨ (st = 5 ∧ x.pec = true ∧ rds) ∨ (st = 8 ∧ x.proto = 7)
          (¬ due → Gives c s s') ∧
          (due → Does c s fun t => t = { onto { b with
              cx := none, cxLoss := 0, cxOn := false, status := st, busAt := s.now, rlen := if x.proto = 7 then BitVec.ofNat 8 (min n 32) else b.rlen
              arbLost := b.arbLost || st == 3, pecErr := b.pecErr || st == 5
              stretchTo := b.stretchTo || st == 4, stretchCnt := if st = 4 then satAdd b.stretchCnt 1 else b.stretchCnt } with
                regs := t.regs, log := t.log, host := t.host } ∧
            t.host = (if st = 4 then (cmlOn i s').host else s.host) ∧
            (¬ rds → t.regs = s.regs) ∧
            (rds → (∀ (j : Nat) (hj : j < n), j < 32 →
                ((t.reg (0xA0020 + 0x1000 * i.val + 4 * (j / 4))) >>> (8 * (j % 4))).setWidth 8 = rx[j]) ∧
              ∀ a, (∀ j, j < n → j < 32 → a ≠ 0xA0020 + 0x1000 * i.val + 4 * (j / 4)) → t.reg a = s.reg a))) ∧
      (drive → b.cxLoss < retries → Gives (.arbitrationRetry i) s (onto { b with cxLoss := b.cxLoss + 1, busAt := s.now })) ∧
      (¬ drive ∨ retries ≤ b.cxLoss → Gives (.arbitrationRetry i) s s') ∧
      (∀ cnt : Byte,
        (s.twiTarget i = true → Gives (.twiEarlyStart i cnt) s (cmlOn i
          (State.dev (back (goes { k with earlyStart := satAdd k.earlyStart 1, busAt := s.now })) 0x801 3 [BitVec.ofNat 32 i.val, cnt.setWidth 32]))) ∧
        (s.twiTarget i = false → Gives (.twiEarlyStart i cnt) s s)) ∧
      (∀ own : Bool,
        let marks (u : State) : Prop := Does (.twiStretchTimeout i own) s fun t => t = { cmlOn i { u with
          twi := u.twi.set i { u.twi[i] with stretchTo := true, stretchCnt := satAdd k.stretchCnt 1, busAt := s.now } } with log := t.log }
        let busy := (if own then s.twiTarget i = true ∧ k.asleep = false else drive) ∧ b.busAt + 2000 ≤ s.now
        (¬ busy → Gives (.twiStretchTimeout i own) s s') ∧ (busy → own = true → marks (back (onto { b with nack := true }))) ∧
        (busy → own = false → b.cxOn = true → marks (onto (broken b))) ∧
        (busy → own = false → b.cxOn = false → Does (.twiStretchTimeout i own) s fun t =>
          t.twi[i] = { (s'.enfFails 2 4).twi[i] with stretchTo := true, stretchCnt := satAdd k.stretchCnt 1, busAt := s.now } ∧ t.emb = (s'.enfFails 2 4).emb)) ∧
      (∀ (sda : Bool) (clk : BitVec 4),
        let u := State.enfFails (back (goes (if k.cx = none then k else broken k))) i 4
        let drives := cfg.getLsbD 29 = true ∧ s.yetHalted = false ∧ (s.pr.role ≠ .failed ∧ s.pwr.state ≠ 3 ∨ i = 0)
        (cfg.getLsbD 31 = false ∨ s.now < k.busAt + 25000 → Gives (.twiSelfReset i sda clk) s s) ∧
        (cfg.getLsbD 31 = true → k.busAt + 25000 ≤ s.now → Does (.twiSelfReset i sda clk) s fun t => t = { cmlOn i { u with
          twi := u.twi.set i { u.twi[i] with selfReset := true, clears := t.twi[i].clears, busAt := s.now } } with log := t.log } ∧
          (sda = true → drives → t.twi[i].clears.toNat = min clk.toNat 9) ∧ (sda = false ∨ ¬ drives → t.twi[i].clears = 0))) ∧
      (k.asleep = true → s.twiTarget i = true →
        Gives (.twiWake i) s (if i = 0 then (goes { k with asleep := false, busAt := s.now }).wakeSeen 0 else goes { k with asleep := false, busAt := s.now })) ∧
      (k.asleep = false ∨ s.twiTarget i = false → Gives (.twiWake i) s s)) ∧
    (∀ (a : Word) (ws : List Word),
      let w := s.wakeSeen 1
      let b := a.toNat - a.toNat % 4
      (s.spi.buf = [] → Gives (.write a ws) s { w with spi := { s.spi with buf := (ws.take 16).zipIdx.map fun p => (BitVec.ofNat 32 (b + 4 * p.2), p.1) } }) ∧
      (s.spi.buf ≠ [] → Gives (.write a ws) s w) ∧
      (∀ n, let r := w.spiRead b n
        Gives (.read a n) s { r.1 with spi := { r.1.spi with out := r.2 } } ∧ r.2.length = n ∧ ∀ v vs, r.2 = v :: vs → v = (w.hostRd .spi (b % 2 ^ 32) 4).2.1) ∧
      Gives .status s { w with spi := { s.spi with status := if s.spi.buf = [] then 0 else 1 } } ∧
      (s.spi.buf = [] → Gives .spiWriteApply s s) ∧
      (∀ v, s.spi.buf = [(a, v)] → s.mirHold a.toNat = false →
        let t := s.hostWr .spi a.toNat 4 v
        Gives .spiWriteApply s (if t.spi.buf = [] then t else { t with spi := { t.spi with buf := [] } })) ∧
      (∀ v q, s.spi.buf = (a, v) :: q → s.mirHold a.toNat = true → Gives .spiWriteApply s s))


/-! ### Stack link (R330-R343) -/

/-- The Stack link. STACK_FRAME takes the frame's number, the peer's acknowledgement and the credit of its class less what was sent since,
and counts the messages whose CRC failed and those of no class, or of Embers, for another node (R331, R335, R338); it is a wake source (19 R403).
STACK_FRAME_SEND, once in a tick and after its strobe, numbers and fills the frame: the first slot
holds a TIME message, an export or forward (the Draft forward joins them as the frame leaves, 08 R207), or a message of the first class with credit, and each message of a class uses one credit
(R337-R341); messages that were due take the places left, and a port in TRAINING sends a frame with the node id and its DELAY messages (R333). A port goes UP, or is refused as a duplicate, and DOWN
(from TRAINING as well; event 0x901); writes of STK_NODE and STK_PORT_CTRL retrain, with a DELAY_REQ (R340), or clear (R333-R335). A CTRL
or LOG message for this node waits for SRECV, another is relayed or discarded (R336); a lead return waits as well (R370). Stale
imports, credit stalls and changes of the lead post their records 0x903, 0x905 and 0x904 (R341-R343).
The model's own readings in it: notes/assumptions/1.md, 20.md, 34.md, 45.md, 46.md. -/
def Obligations.StackLink : Prop :=
  ∀ s : State, Regs.wf s.regs = true →
    let live := s.pr.role ≠ .syncing ∧ s.pr.role ≠ .synced ∧ s.pr.role ≠ .failed ∧ s.awake = true
    let node := (s.reg 0xB0004).toNat % 16384
    let here (u : State) : State := { u with stk := (u.evp 4).stk }
    (∀ p : Fin 4,
      let q := s.link.port[p]
      let up := p.val < s.nPorts ∧ q.st = 2
      let enabled := p.val < s.nPorts ∧ (s.reg (0xB0100 + 0x20 * p.val)).getLsbD 31 = true
      let goes (k : StkPortSt) : State := { s with link := { s.link with port := s.link.port.set p k } }
      (∀ (sq ack credit : Byte) (slots : List Msg),
        let c := Instr.stackFrame p sq ack credit slots
        let k : Fin 4 := Fin.ofNat 4 (credit.toNat / 64)
        let w : State := if enabled then s.wakeSeen 6 else s
        let bad := ((slots.take 6).filter fun m => !mCrcOk m).length
        let lost := ((slots.take 6).filter fun m =>
          mCrcOk m && decide (mClass m ∉ ([0, 1, 4, 0xFF] : List Byte)) && (mDest m).toNat != 0 && (mDest m).toNat != node).length
        (¬ (live ∧ up) → Gives c s w) ∧
        (∀ later, live → up → ((∀ x ∈ q.sent, x.1 ≠ ack) → later = q.sent) →
          (∀ xs v ys, q.sent = xs ++ (ack, v) :: ys → (∀ x ∈ xs, x.1 ≠ ack) → later = ys) →
          Gives c s { w with link := (goes { q with
            ack := sq, sent := later, crc := satAdd q.crc bad, crcNew := q.crcNew + bad, drop := satAdd q.drop lost
            cred := q.cred.set k (credit.toNat % 32 - (later.map fun x => x.2[k]).sum) }).link })) ∧
      (let c := Instr.stackFrameSend p
       let f := s.draftForward p
       let q := f.link.port[p]
       let times := (if s.sendsSync p then [s.timeMsg 0 (leBytes 6 s.time.tick.toNat ++ leBytes 2 s.time.epoch.toNat)] else []) ++ q.times
       let relayed (k : Fin 4) : List Msg := (s.link.relay.filter fun r => r.outp = p && r.cls = k).map (·.msg)
       let ofClass (k : Fin 4) : List Msg := if q.cred[k] = 0 then [] else (q.txq[k] ++ relayed k).take 1
       let next := times ++ q.exps.map (·.2) ++ q.relExps ++ ofClass 0 ++ ofClass 1 ++ ofClass 2 ++ ofClass 3
       let gate := s.time.strobeDue = false ∧ s.link.port[p].sentAt ≠ some s.now
       let training := enabled ∧ s.link.port[p].st = 1 ∧ s.pr.role ≠ .failed ∧ s.awake = true
       let v : State := if live ∧ ¬ up then (((List.range 16).filter fun e => s.link.port[p].exps.any fun m => m.1 == e).foldl
         (fun (u : State) (e : Nat) => u.dev 0x104 4 [BitVec.ofNat 32 e, BitVec.ofNat 32 p.val]) s).modPort p (fun k => { k with exps := [], relExps := [] }) else s
       let due (n : StkPortSt) (k : Fin 4) : List Msg := if k = 0 then n.ctrlDues else if k = 2 then n.dues else []
       let size (k : Fin 4) : Nat := if k = 0 ∨ k = 3 then 28 else 16
       (¬ gate → Gives c s s) ∧ (gate → ¬ (live ∧ up) → ¬ training → Gives c s v) ∧
       (gate → training → Gives c s (v.modPort p fun k => { k with
         sentAt := some s.now, seq := k.seq + 1, train := some (BitVec.ofNat 14 node), times := k.times.drop 6
         slots := k.times.take 6 ++ List.replicate (6 - k.times.length) (mkMsg 0xFF 0 0 0 []) })) ∧
       (gate → live → up → Does c s fun t => t = { f with link := { f.link with port := s.link.port.set p t.link.port[p], relay := t.link.relay }, log := t.log } ∧
         (s.cluRole ≠ 2 → f.dft = s.dft) ∧
         (let n := t.link.port[p]
          n.seq = q.seq + 1 ∧ n.slots.length = 6 ∧ n.slots.head? = some (next.headD (mkMsg 0xFF 0 0 0 [])) ∧ n.st = 2 ∧ n.far = q.far ∧
          n.ack = q.ack ∧ n.crc = q.crc ∧ n.drop = q.drop ∧ n.sentAt = some s.now ∧ n.train = none ∧
          (∃ counts : Vector Nat 4, n.sent = q.sent ++ [(q.seq, counts)] ∧ ∀ k : Fin 4, n.cred[k] + counts[k] = q.cred[k] ∧
            ∃ j, j ≤ counts[k] ∧ (let left := q.txq[k].drop j
              n.txq[k] = left ++ (due q k).take (size k - left.length) ∧ due n k = (due q k).drop (size k - left.length)))))) ∧
      (∀ far : BitVec 14,
        let asks := live ∧ enabled ∧ q.st = 1
        let twice := node = 0 ∨ far.toNat = node ∨ ∃ o : Fin 4, o ≠ p ∧ o.val < s.nPorts ∧ s.link.port[o].st = 2 ∧ s.link.port[o].far = far
        (¬ asks → Gives (.stkPortUp p far) s s) ∧ (asks → twice → Gives (.stkPortUp p far) s (goes { q with dup := true })) ∧
        (asks → ¬ twice → Gives (.stkPortUp p far) s (State.dev (goes { q with
          st := 2, dup := false, far := far, cred := #v[28, 16, 16, 28], sent := [], stall := #v[0, 0, 0, 0], rspRun := 0 }) 0x900 2 [BitVec.ofNat 32 p.val, far.setWidth 32, q.dly]))) ∧
      (∀ lost : Bool,
        (q.st ≠ 0 → Gives (.stkPortDown p lost) s (State.dev (goes { q with
          st := 0, lockAt := if lost then none else q.lockAt, dup := if q.st = 2 then q.dup else false }) 0x901 5
          [BitVec.ofNat 32 p.val, Config.codeOf 0x901 1 lost.toNat])) ∧
        (q.st = 0 → Gives (.stkPortDown p lost) s s)) ∧
      (∀ ini : Initiator, p.val < s.nPorts →
        let k : StkPortSt := if (s.reg (0xB0100 + 0x20 * p.val)).getLsbD 31 then q else { q with st := 0, lockAt := none, dup := false }
        let writes (c : Instr) (n : StkPortSt) : Prop := Does c s fun t => t = { goes n with regs := t.regs, log := t.log } ∧
          t.reg (0xB0100 + 0x20 * p.val) = s.reg (0xB0100 + 0x20 * p.val) &&& 0x80000000 ∧ ∀ a, a ≠ 0xB0100 + 0x20 * p.val → t.reg a = s.reg a
        writes (.stkPortRetrain ini p) (if k.st = 2 then { k with st := 1, times := k.times ++ [s.timeMsg 1 []] } else k) ∧ writes (.stkPortClr ini p) { k with crc := 0, drop := 0 }) ∧
      (∀ (m : Msg) (isLog : Bool),
        let c : Instr := if isLog then .logMessage p m else .ctrlMessage p m
        let k : Fin 4 := if isLog then 3 else 0
        let typ := (mType m).toNat
        let hw := isLog = false ∧ 0x10 ≤ typ ∧ typ ≤ 0x21
        let dest := (mDest m).toNat
        let heard := live ∧ up ∧ mClass m = (if isLog then 4 else 1) ∧ mCrcOk m = true
        let relays := (s.reg 0xB0008).getLsbD 31 = true
        let parent : Fin 4 := Fin.ofNat 4 ((s.reg 0x48).toNat / 16 % 4)
        let way : Option (Fin 4) := match s.route (mDest m) with
          | some o => some o
          | none => if (s.reg 0x48).toNat % 4 = 1 ∧ parent ≠ p then some parent else none
        (¬ heard → Gives c s s) ∧ (heard → hw → dest = node → Gives c s s) ∧
        (heard → (dest = node ∨ dest = 0) → ¬ (hw ∧ dest = node) → Gives c s (here { s with link := if isLog then
          { s.link with log := s.link.log ++ [(p, m)] } else { s.link with ctrl := s.link.ctrl ++ [(p, m)] } })) ∧
        (heard → dest ≠ node → dest ≠ 0 → (relays → way = none) → Gives c s (goes { q with drop := satAdd q.drop 1 })) ∧
        (∀ o, heard → dest ≠ node → dest ≠ 0 → relays → way = some o →
          (¬ hw → Gives c s { s with link := { s.link with relay := s.link.relay ++ [{ inp := p, outp := o, cls := k, msg := m }] } }) ∧
          (hw → Gives c s (s.modPort o fun n => { n with relExps := putNewest n.relExps m })))) ∧
      (∀ (src : BitVec 14) (tk : Word) (id : BitVec 16),
        (live → up → Gives (.leadReturn p src tk id) s (here { s with link := { s.link with
          ctrl := s.link.ctrl ++ [(p, mkMsg 1 0x30 node src.toNat (wBytes tk ++ leBytes 2 id.toNat))] } })) ∧
        (¬ (live ∧ up) → Gives (.leadReturn p src tk id) s s)) ∧
      (∀ k : Fin 4,
        let due := max 1 ((s.reg 0xB0008).toNat % 65536) ≤ q.stall[k] ∧ q.stallSaid[k] = false
        (due → Gives (.stkCreditStall p k) s (State.dev (goes { q with stallSaid := q.stallSaid.set k true }) 0x905 4
          [BitVec.ofNat 32 p.val, Config.codeOf 0x905 1 k.val])) ∧
        (¬ due → Gives (.stkCreditStall p k) s s))) ∧
    (∀ (ini : Initiator) (id : BitVec 14), Does (.stkNodeWrite ini id) s fun t =>
      t = { s with regs := t.regs, link := { s.link with port := t.link.port }, log := t.log } ∧ t.reg 0xB0004 = id.setWidth 32 ∧
      (∀ a, a ≠ 0xB0004 → t.reg a = s.reg a) ∧
      ∀ p : Fin 4, t.link.port[p] = if s.link.port[p].st = 2 then { s.link.port[p] with st := 1, times := s.link.port[p].times ++ [t.timeMsg 1 []] } else s.link.port[p]) ∧
    (∀ (ini : Initiator) (v : Word),
      let c := Instr.stkLeadChange ini v
      let old := s.reg 0xB000C
      let role (w : Word) : Nat := w.toNat / 2 ^ 30 % 3
      let lead (w : Word) : Nat := w.toNat / 65536 % 16384
      let set (u : State) : Prop := u = { s with regs := u.regs, log := u.log } ∧ u.reg 0xB000C = v ∧ ∀ a, a ≠ 0xB000C → u.reg a = s.reg a
      let changes := role old ≠ role v ∨ lead old ≠ lead v
      (changes → Tells c s 0x904 4 [BitVec.ofNat 32 (role old), BitVec.ofNat 32 (lead old), BitVec.ofNat 32 (role v), BitVec.ofNat 32 (lead v)] set) ∧
      (¬ changes → ∃ u, Gives c s u ∧ set u ∧ u.log = s.log)) ∧
    (∀ i : Fin 32,
      let m := s.fbx.imp[i]
      let lim := (s.reg 0xB000C).toNat % 65536
      let due := lim ≠ 0 ∧ m.never = false ∧ lim ≤ m.age.toNat ∧ s.link.impStale.getLsbD i.val = false
      (due → Gives (.stkImportStale i) s (State.dev { s with link := { s.link with impStale := s.link.impStale ||| (1 : Word) <<< i.val } } 0x903 5
        [BitVec.ofNat 32 i.val, m.src.setWidth 32])) ∧
      (¬ due → Gives (.stkImportStale i) s s))


/-! ### Pairing (R344-R371) -/

/-- The pair unit and the witness. A withdrawn grant and the damper input move DAMPER_OUT and the gate (R346, R347). A standby that samples its
grant becomes active, its phases and pool kept, a stale one's pool frozen, with record 0xA01 of the last frame applied (R360-R365), its windows with the ticks they had
left in the mirrored state (18 R386); a pool record whose t_offer has passed by the content tick is CANCELLING (09 R229). A received frame is checked by its CRCs and number
(R352, R358); at cycle 100 it is applied, and with the last SNAP the standby is synced (R358, R369); the active takes the standby's
acknowledgement, and releases what it withheld; a lost link makes the active solo, the standby stale (R359). The commands release and swap
(R361, R366); a swap is checked at b − 3 and done at b (R366, R367), one that stands keeps its boundary. The witness moves its grant on a lost or FAULT heartbeat, and
grants both during a swap (R349, R350), and A of two that come alive in one tick (19 R399); a grant that moves sets evpend bit 11 (03 R80). The lead and the parent return after their windows (R370, R371).
The model's own readings in it: notes/assumptions/1.md, 12.md, 20.md, 24.md, 53.md, 54.md, 55.md, 56.md. -/
def Obligations.PairUnit : Prop :=
  ∀ s : State, Regs.wf s.regs = true →
    let p := s.pr
    let goes (q : PairSt) : State := { s with pr := q }
    let seen (u : State) : State := { u with stk := (u.evp 11).stk }
    let standby := p.role = .syncing ∨ p.role = .synced
    let cfg := s.reg 0xC0000
    let released (t : State) : Prop :=
      (∀ n : Fin 3, t.twi[n] = if n ≠ 0 ∧ s.twi[n].cx.isSome = true then { s.twi[n] with cx := none, cxLoss := 0, cxOn := false, status := 7 }
        else if n = 2 ∧ s.enfOnBus = true then { s.twi[n] with cxLoss := 0 } else s.twi[n]) ∧
      (∀ h : Fin 256, t.emb.hold[h] = if s.enfOnBus = true then { s.emb.hold[h] with enf := { s.emb.hold[h].enf with
        onBus := false, need := s.emb.hold[h].enf.need || s.emb.hold[h].enf.onBus } } else s.emb.hold[h])
    let byte (f : List Byte) (k : Nat) : Byte := f.getD k 0
    (s.hasPair = true → p.wit = true → Gives .grantWithdrawn s (seen (goes { p with wit := false })) ∧ (p.role ≠ .witness → (goes { p with wit := false }).damperOut = false)) ∧
    (p.wit = false ∨ s.hasPair = false → Gives .grantWithdrawn s s) ∧
    (∀ level, (p.role = .witness ∨ s.hasPair = false → Gives (.damperInChange level) s s) ∧
      (p.role ≠ .witness → s.hasPair = true → Gives (.damperInChange level) s (seen (goes { p with damperIn := level, gateOpen := !level })))) ∧
    (let due := standby ∧ s.pins.witGrant = true ∧ s.cycle = 0
     let swap := p.swapAnn = true ∧ s.time.tick.toNat % 1024 = 0
     (¬ due → Gives .pairHandover s s) ∧
     let bad := p.role = .syncing ∨ p.stale = true
     let age : Nat := if p.swapAnn && s.time.tick.toNat % 1024 == 0 then 0 else match p.rxAt with | some x => s.now - x | none => 0
     (due → Tells .pairHandover s 0xA01 6 [s.time.tick.setWidth 32, (s.time.tick >>> 32).setWidth 32,
         Config.codeOf 0xA01 2 (p.swapAnn && s.time.tick.toNat % 1024 == 0).toNat, p.lastSeq.setWidth 32, p.rxTick, if bad then 1 else 0] fun t =>
       t.pr.role = .active ∧ t.pr.hand = p.hand + 1 ∧ t.pr.wit = p.wit ∧ t.pr.gateOpen = p.gateOpen ∧ (swap → t.pr.solo = false) ∧
       (¬ swap → t.pr.solo = true) ∧ t.pr.handAt = some s.now ∧ t.pr.resumeAt = some (s.now + max 2 (min 16 (cfg.toNat / 2 ^ 24 % 32))) ∧
       t.pr.queue = [] ∧ t.pr.sets = [] ∧ t.pr.refs = p.refs ∧
       t.emb = { s.emb with frozen := s.emb.frozen || decide bad, held := [] } ∧
       t.thm = { s.thm with queue := [], stop := none, zone := s.thm.zone.map fun z => { z with grace := z.grace.map (· + age) } } ∧
       t.bat = { s.bat with str := s.bat.str.map fun k => { k with vRun := 0, cutDue := false } } ∧ t.phs.ph = s.phs.ph ∧ t.regs = s.regs ∧ t.mem = s.mem ∧ t.fbx = s.fbx ∧
       t.stk = (s.evp 11).stk)) ∧
    (∀ f : List Byte,
      let bad (c : Nat) : PairSt → PairSt := fun q => { q with bad := satAdd q.bad 1, downDue := if q.role = .active then q.downDue else some c }
      let good := frOk f = true ∧ (byte f 2).toNat / 64 = 1
      let took : PairSt := { p with
        hdrAt := s.now, validAt := s.now, imgMm := leNat ((f.drop 12).take 2) != s.boot.imgCrc.toNat % 65536
        swapAnn := (byte f 2).getLsbD 2, swapAt := if (byte f 2).getLsbD 2 then p.swapAt else none }
      let follows := p.rxSeq = none ∨ p.rxSeq = some (byte f 3 - 1)
      (s.mirrorsIn = false → Gives (.mirrorFrame f) s s) ∧ (s.mirrorsIn = true → ¬ good → Gives (.mirrorFrame f) s (goes (bad 0 p))) ∧
      (s.mirrorsIn = true → good → follows → Gives (.mirrorFrame f) s (goes { took with rx := some f })) ∧
      (s.mirrorsIn = true → good → ¬ follows → Gives (.mirrorFrame f) s (goes (bad 1 took)))) ∧
    (p.rx = none → Gives .mirrorApply s s) ∧
    (∀ f, p.rx = some f →
      let tk : Word := BitVec.ofNat 32 (leNat ((f.drop 6).take 4))
      let took : PairSt := { p with rx := none, rxSeq := some (byte f 3), lastSeq := byte f 3, rxTick := tk, rxAt := some (s.now - ((s.time.tick.setWidth 32 : Word) - tk).toNat) }
      let n := leNat ((f.drop 10).take 2)
      let owed (u : State) : State := { u with emb := { u.emb with xfer := u.emb.xfer.map fun x =>
        if x.dir = 1 ∧ x.st = 1 ∧ x.offerEnd ≤ s.now - ((s.time.tick.setWidth 32 : Word) - tk).toNat then
          { x with st := 2, retryAt := s.now - ((s.time.tick.setWidth 32 : Word) - tk).toNat + s.tRetry } else x } }
      let synced := p.role = .syncing ∧ p.snapSeen = true ∧ p.downDue = none ∧ (byte f 2).getLsbD 5 = true
      (s.mirrorsIn = false → Gives .mirrorApply s (goes { p with rx := none })) ∧
      (s.mirrorsIn = true → n = 0 → ¬ synced → Gives .mirrorApply s (owed (goes took))) ∧
      (s.mirrorsIn = true → n = 0 → synced → p.snapTbls = [] → Does .mirrorApply s fun t =>
        t = { owed (goes { took with stale := false, role := .synced }) with log := t.log }) ∧
      (s.mirrorsIn = true → n = 74 → (f.drop 16).take 2 = [0x48, 0x04] → f.length = 500 → ¬ synced →
        Gives .mirrorApply s (owed (goes { took with refs := (List.range 48).map fun i => BitVec.ofNat 12 (leNat ((f.drop 18).take 72) / 4096 ^ i) })))) ∧
    (∀ f : List Byte,
      let fl := byte f 2
      let good := p.role = .active ∧ frHeadOk f = true ∧ fl.toNat / 64 = 2
      let ack := byte f 4
      (¬ good → Gives (.mirrorAck f) s s) ∧
      (good → Does (.mirrorAck f) s fun t =>
        t = { s with pr := t.pr, emb := t.emb, link := t.link, stk := t.stk, log := t.log } ∧
        t.stk = (if p.solo = true ∧ fl.getLsbD 5 = true ∧ fl.getLsbD 4 = false then (s.evp 11).stk else s.stk) ∧ t.pr.hdrAt = s.now ∧ t.pr.ackSeq = ack ∧ t.pr.lastSeq = byte f 3 ∧ t.pr.rxSeq = p.rxSeq ∧
        t.pr.imgMm = (leNat ((f.drop 12).take 2) != s.boot.imgCrc.toNat % 65536) ∧ t.pr.role = .active ∧ t.pr.peerReq = fl.getLsbD 3 ∧
        t.pr.resyncReq = (p.resyncReq || (fl.getLsbD 3 && (!p.peerReq || p.resyncAt.all fun x => decide (x + 3 ≤ s.now)))) ∧ t.pr.solo = (p.solo && !(fl.getLsbD 5 && !fl.getLsbD 4)) ∧
        t.pr.downDue = (if fl.getLsbD 4 = true ∧ p.solo = false then some 4 else p.downDue) ∧
        (∀ tk, (p.sentF.find? fun e => e.1 = ack) = some (ack, tk) → t.emb.held = s.emb.held.filter (fun e => decide (tk < e.1)) ∧
          t.pr.sentF = p.sentF.filter fun e => decide (tk < e.2)) ∧
        ((∀ e ∈ p.sentF, e.1 ≠ ack) → t.emb = s.emb ∧ t.link = s.link ∧ t.pr.sentF = p.sentF))) ∧
    (p.downDue = none → Gives .pairLinkDown s s) ∧
    (∀ c, p.downDue = some c →
      let q : PairSt := { p with downDue := none }
      let lost : PairSt := { q with stale := true, rxSeq := none, rx := none, rxSet := [], snapSeen := false, embPh := 0, embLater := [] }
      (p.role = .active → p.solo = true → Gives .pairLinkDown s (goes q)) ∧
      (p.role = .active → p.solo = false → Does .pairLinkDown s fun t =>
        t = { seen (goes { q with solo := true }) with emb := t.emb, link := t.link, log := t.log } ∧ t.emb.held = s.emb.held.filter fun e => decide (s.now < e.1)) ∧
      (standby → Does .pairLinkDown s fun t => t = { seen (goes { lost with role := .syncing }) with log := t.log }) ∧
      (p.role ≠ .active → ¬ standby → Gives .pairLinkDown s (goes q))) ∧
    (p.role = .active → p.resyncReq = true → Gives .pairResync s (State.dev (goes { p with
      resyncReq := false, resyncAt := some s.now, resyncs := satAdd p.resyncs 1, snaps := s.snapRanges, snapEmb := false, embWords := []
      lastRail := Vector.replicate 16 0xFFFFFFFF, lastPhase := [], lastZone := Vector.replicate 8 (0xFFFFFFFF, 0) }) 0xA05 3 [0])) ∧
    (p.role ≠ .active ∨ p.resyncReq = false → Gives .pairResync s s) ∧
    (∀ (ini : Initiator) (key : Byte), s.hasPair = true →
      let on := key = 0x3C ∧ p.role = .active
      (¬ on → Gives (.pairCmdRelease ini key) s s ∧ Gives (.pairCmdSwap ini key) s s) ∧
      (on → (Does (.pairCmdRelease ini key) s fun t => t = { seen (goes { p with role := .failed, faultOut := true, gateOpen := false }) with
            fbx := { s.fbx with freezeFrom := t.fbx.freezeFrom }, twi := t.twi, emb := { s.emb with hold := t.emb.hold }, log := t.log } ∧
            t.fbx.freezeFrom ≠ none ∧ released t) ∧
        (∀ b, p.swapAt = some b → p.swapAnn = true ∨ s.now + 3 ≤ b → Gives (.pairCmdSwap ini key) s s) ∧
        (p.swapAt = none ∨ (∃ b, p.swapAt = some b ∧ p.swapAnn = false ∧ b < s.now + 3) → Does (.pairCmdSwap ini key) s fun t => ∃ b, t = { goes { p with swapAt := some b } with log := t.log } ∧ s.now + 4 ≤ b ∧ b < s.now + 1028 ∧ (s.tickAt b).toNat % 1024 = 0))) ∧
    (let fault := s.clk.holdover = true ∨ s.boot.halt = true ∨ s.stk.safe = true ∨ s.emb.frozen = true
     (∀ b, s.swapPlan = some b → b = s.now + 3 → p.swapAnn = false →
       (p.solo = false → p.imgMm = false → ¬ fault → Gives .swapCheck s (goes { p with swapAnn := true, swapAt := some b })) ∧
       (p.solo = true ∨ p.imgMm = true ∨ fault → Does .swapCheck s fun t => t = { goes { p with swapAt := none, swapBase := some b } with log := t.log })) ∧
     (∀ b, s.swapPlan = some b → b ≠ s.now + 3 ∨ p.swapAnn = true → Gives .swapCheck s s) ∧ (s.swapPlan = none → Gives .swapCheck s s)) ∧
    (∀ b, p.role = .active → p.swapAt = some b →
      (p.swapAnn = true → b ≤ s.now → s.cycle = 0 → Does .pairSwap s fun t =>
        t.pr.role = .synced ∧ t.pr.swapAnn = false ∧ t.damperOut = false ∧ t.pwmGate = false ∧ t.pr.gateOpen = p.gateOpen ∧ t.fbx = { s.fbx with halted := true } ∧ t.stk.b = (if s.stk.b = .halted then .halted else .notStarted) ∧
        t.stk.fLive = false ∧ t.stk.thB = s.stk.thB ∧ t.regs = s.regs ∧ t.mem = s.mem ∧ t.phs = { s.phs with ph := s.phs.ph.map PhaseSt.stop } ∧ t.emb.counters = s.emb.counters ∧
        released t ∧ t.emb.held = [] ∧ ∀ o : Fin 4, t.link.port[o].st = if s.link.port[o].st = 2 then 1 else s.link.port[o].st) ∧
      (p.swapAnn = false ∨ s.now < b ∨ s.cycle ≠ 0 → Gives .pairSwap s s)) ∧
    (p.role = .synced → p.swapAnn = true → s.pins.witGrant = true → s.cycle = 0 → s.time.tick.toNat % 1024 = 0 → Does .pairSwap s fun t =>
      t.pr.role = .active ∧ t.pr.solo = false ∧ t.pr.handAt = some s.now ∧ t.phs.ph = s.phs.ph ∧ t.regs = s.regs ∧ t.mem = s.mem) ∧
    (∀ c : Ctl,
      let w := p.witSt
      let wit (x : WitSt) : State :=
        let u := goes { p with witSt := x }
        if x.grantA = w.grantA ∧ x.grantB = w.grantB then u else seen u
      let four := [Instr.witnessAlivePulse c, .witnessFaultPulse c, .witnessSwapPulse c, .witnessHbTimeout]
      let fresh (t : Option Nat) (k : Nat) : Prop := ∃ x, t = some x ∧ s.now < x + k
      let alive : WitSt := match c with | .A => { w with aliveA := some s.now, edgeA := some s.now } | .B => { w with aliveB := some s.now, edgeB := some s.now }
      let mine := match c with | .A => w.grantA | .B => w.grantB
      let its := match c with | .A => w.grantB | .B => w.grantA
      let itsAlive := match c with | .A => w.aliveB | .B => w.aliveA
      let gone : WitSt := match c with | .A => { w with aliveA := none, edgeA := some s.now } | .B => { w with aliveB := none, edgeB := some s.now }
      let edge : WitSt := match c with | .A => { w with edgeA := some s.now } | .B => { w with edgeB := some s.now }
      let first := c = .A ∧ w.grantA = false ∧ w.firstB = some s.now
      let only (x : WitSt) (d : Ctl) : WitSt := { x with grantA := d == .A, grantB := d == .B }
      let other : Ctl := match c with | .A => .B | .B => .A
      (p.role ≠ .witness → ∀ i ∈ four, Gives i s s) ∧
      (p.role = .witness →
        (w.swapping = true → c = w.swapNew → mine = true → Gives (.witnessAlivePulse c) s (wit { only alive c with swapping := false })) ∧
        (w.swapping = false → w.grantA = false → w.grantB = false → Gives (.witnessAlivePulse c) s
          (wit { only alive c with firstB := if c = .B then some s.now else none })) ∧
        (w.swapping = false ∨ c ≠ w.swapNew → its = true → first → Gives (.witnessAlivePulse c) s (wit { only alive .A with firstB := none })) ∧
        (w.swapping = false ∨ c ≠ w.swapNew → mine = true ∨ its = true → ¬ first → Gives (.witnessAlivePulse c) s (wit alive)) ∧
        (mine = true → fresh itsAlive 3 ∨ its = true → Gives (.witnessFaultPulse c) s (wit { only gone other with swapping := false })) ∧
        (mine = false ∨ (¬ fresh itsAlive 3 ∧ its = false) → Gives (.witnessFaultPulse c) s (wit gone)) ∧
        (mine = true → w.swapping = false → fresh itsAlive 3 → Gives (.witnessSwapPulse c) s
          (wit { edge with grantA := w.grantA || c == .B, grantB := w.grantB || c == .A, swapping := true, swapNew := other })) ∧
        (mine = false ∨ w.swapping = true ∨ ¬ fresh itsAlive 3 → Gives (.witnessSwapPulse c) s (wit edge)) ∧
        (mine = true → (w.swapping = false ∧ its = false) ∨ (w.swapping = true ∧ other = w.swapNew) →
          let held := fresh (match c with | .A => w.edgeA | .B => w.edgeB) 3
          (held → Gives .witnessHbTimeout s s) ∧
          (¬ held → fresh itsAlive 3 ∨ its = true → Gives .witnessHbTimeout s (wit { only w other with swapping := false })) ∧
          (¬ held → ¬ fresh itsAlive 3 → its = false → Gives .witnessHbTimeout s s)))) ∧
    (p.leadWin = some 0 → Does .leadHomeExpire s fun t => t = { goes { p with leadWin := none, leadTake := some (s.now + 1024) } with link := t.link, log := t.log } ∧
      ∀ o : Fin 4, let k := s.link.port[o]
        let m := mkMsg 1 0x30 0 s.node (wBytes ((s.tickAt (s.now + 1024)).setWidth 32) ++ leBytes 2 s.node)
        let full := 28 ≤ (k.txq[(0 : Fin 4)]).length
        t.link.port[o] = if ¬ ((s.reg 0xC0020).getLsbD (24 + o.val) = true ∧ s.portUp o = true) then k
          else if full then { k with ctrlDues := k.ctrlDues ++ [m] } else { k with txq := k.txq.set 0 (k.txq[(0 : Fin 4)] ++ [m]) }) ∧
    (p.leadWin ≠ some 0 → Gives .leadHomeExpire s s) ∧
    (∀ t0, p.leadTake = some t0 → t0 ≤ s.now → Does .leadRoleTake s fun t =>
      t = { goes { p with leadTake := none } with regs := t.regs, log := t.log } ∧
      ((s.reg 0xB000C).toNat / 2 ^ 30 ≠ 2 → t.reg 0xB000C = (s.reg 0xB000C &&& 0x3FFFFFFF) ||| 0x80000000) ∧
      ((s.reg 0xB000C).toNat / 2 ^ 30 = 2 → t.reg 0xB000C = s.reg 0xB000C) ∧ ∀ a, a ≠ 0xB000C → t.reg a = s.reg a) ∧
    (∀ t0, p.leadTake = some t0 → s.now < t0 → Gives .leadRoleTake s s) ∧ (p.leadTake = none → Gives .leadRoleTake s s) ∧
    (p.parWin ≠ some 0 → Gives .parentHomeExpire s s) ∧
    (p.parWin = some 0 → let home := (s.reg 0xC0020) >>> 28 &&& 3
      Does .parentHomeExpire s fun t =>
        t = { s with regs := t.regs, clk := t.clk, time := t.time, pr := { p with parWin := none }, log := t.log } ∧
        t.reg 0x48 = ((s.reg 0x48 &&& 0x03) ||| home <<< 4) ∧ t.reg 0x40 = ((s.reg 0x40 &&& 0x03) ||| home <<< 8) ∧
        ∀ a, a ≠ 0x40 → a ≠ 0x48 → t.reg a = s.reg a) ∧
    (standby → s.awake = true → Does .standbyFrameSend s fun t => t = { goes { p with frame := t.pr.frame, txSeq := p.txSeq + 1, used := 0 } with log := t.log } ∧
      t.pr.frame.length = 500 ∧ byte t.pr.frame 3 = p.txSeq + 1 ∧ byte t.pr.frame 4 = p.lastSeq ∧ (byte t.pr.frame 2).toNat / 64 = 2 ∧
      ((byte t.pr.frame 2).getLsbD 5 = decide (p.role = .synced)) ∧ (byte t.pr.frame 2).getLsbD 4 = p.stale) ∧
    (¬ standby ∨ s.awake = false → Gives .standbyFrameSend s s)


/-! ### Resets, boot and power states (R387-R404) -/

/-- Resets, boot and power states. POWER_ON_RESET leaves only the MRAM and the fuse array (R387, R390, 14 R299); of a
page in progress what R290 leaves open is left open; RESET_N, SYS_RST_CMD with its key and a
ship wake stop every phase and, once no page write and no fuse attempt is under way, leave the state of R390 with their cause (R389-R391,
R404), the summary of every open rate window owed (18 R374). RESET_N_RELEASE samples the straps, also while the reset waits (R391);
PLL_LOCK starts TICK; FUSE_SENSE_DONE, once per power-on (14 R301), latches the array and the feature mask; an image is loaded
from the newer slot, or the other, or boot halts; the boot reports the black box, takes the pair role, and, in a tick after the last step, starts thread B at
entry_b (R316, R392-R400). SYS_PWR_CMD asks for a power state, taken or refused at cycle 0 of the next tick; analog settling and
a wake source end the others (R401-R403).
The model's own readings in it: notes/assumptions/1.md, 9.md, 12.md, 13.md, 15.md, 16.md, 40.md, 49.md, 59.md, 60.md. -/
def Obligations.StartupAndPower : Prop :=
  ∀ s : State, Memory.wf s.mem = true → s.log.posted = [] → s.log.held = [] →
    let b := s.boot
    let goes (q : BootSt) : State := { s with boot := q }
    (Does .powerOnReset s fun t =>
      t = { State.reset with pending := s.pending, freeCtr := t.freeCtr, mem := t.mem, ecc := t.ecc,
                             nvm := { marker := t.nvm.marker, sysPart := t.nvm.sysPart, journal := t.nvm.journal }
                             otp := { copyA := t.otp.copyA, copyB := t.otp.copyB } } ∧
      (s.nvm.cur = none → t.nvm.marker = s.nvm.marker ∧ t.nvm.sysPart = s.nvm.sysPart ∧ t.nvm.journal = s.nvm.journal) ∧
      (∀ w, s.nvm.cur = some w → t.nvm.marker = (if s.nvm.curAt + w.groups ≤ s.now then none else s.nvm.marker) ∧
        (∀ i : Fin 8, w.src ≠ .define i → t.nvm.sysPart[i] = s.nvm.sysPart[i]) ∧
        (∀ i : Fin 16, w.src ≠ .journalClear i → w.abLast ≠ some i → t.nvm.journal[i] = s.nvm.journal[i])) ∧
      (s.otpBusy = false → t.otp.copyA = s.otp.copyA ∧ t.otp.copyB = s.otp.copyB) ∧
      (∀ w : Fin 256, s.otp.copyA[w] ||| t.otp.copyA[w] = t.otp.copyA[w] ∧ s.otp.copyB[w] ||| t.otp.copyB[w] = t.otp.copyB[w]) ∧
      (∀ w limit target, s.otp.cmd = some (.program w limit target) → ∀ o : Fin 256, (o.val ≠ w.toNat → t.otp.copyA[o] = s.otp.copyA[o] ∧ t.otp.copyB[o] = s.otp.copyB[o]) ∧
        t.otp.copyA[o] &&& ~~~ target = s.otp.copyA[o] &&& ~~~ target ∧ t.otp.copyB[o] &&& ~~~ target = s.otp.copyB[o] &&& ~~~ target) ∧
      (∀ x, x < 0x10000000 → t.byte x = 0) ∧
      ∀ x, 0x10000000 ≤ x → (∀ w, s.nvm.cur = some w → x < 0x10000000 + w.off ∨ 0x10000000 + w.off + w.data.length ≤ x) → t.byte x = s.byte x) ∧
    (let idle := s.nvm.cur = none ∧ s.otpBusy = false
     let kept (x : Nat) : Prop := 0x400000 ≤ x ∧ x < 0x440000 ∨ 0x10000000 ≤ x
     let resets (c : Instr) (cause : BitVec 2) : Prop :=
       (idle → Does c s fun t =>
         t = { State.reset with
           pending := s.pending, now := s.now, freeCtr := t.freeCtr, mem := t.mem, ecc := t.ecc, pins := s.pins, log := t.log, feat := s.feat
           clk := { holdoverExp := s.clk.holdoverExp }, boot := { held := cause == 1 || (b.held && !b.freed), cause := cause, sysCnt := satAdd b.sysCnt 1 }
           bat := { ship := s.bat.ship, str := s.bat.str.map fun k => { q := k.q, residue := k.residue }, keeper := s.shipN }
           nvm := { marker := s.nvm.marker, sysPart := s.nvm.sysPart, journal := s.nvm.journal }
           otp := { copyA := s.otp.copyA, copyB := s.otp.copyB, seen := s.otp.seen, data := s.otp.data, marginal := s.otp.marginal, region := s.otp.region, cause := s.otp.cause, part := s.otp.part }
           host := { straps := s.host.straps }, pr := { hand := s.pr.hand, damperIn := s.pr.damperIn } } ∧
         (∀ x, kept x → t.byte x = s.byte x) ∧ (∀ x, ¬ kept x → t.byte x = 0) ∧ t.log.head = s.log.head ∧ t.log.tail = s.log.tail ∧
         t.log.ents = s.log.ents ∧ (∀ o ∈ s.log.owed, o ∈ t.log.owed) ∧
         ∀ i : Fin 64, let w := s.log.win[i]
           w.isOpen = true → w.supp ≠ 0 → ∃ o ∈ t.log.owed, o.entry = i ∧ o.reserved = w.reserved ∧ o.supp = w.supp ∧ o.due = s.now + 1) ∧
       (¬ idle → Does c s fun t => t.boot = { b with rstPend := some cause, freed := b.freed && cause != 1 } ∧ t.nvm.queue = [] ∧ t.log.bb.queue = [] ∧ t.nvm.cur = s.nvm.cur ∧ t.regs = s.regs ∧
         t.mem = s.mem ∧ ∀ n : Fin 48, t.phs.ph[n].sw = false)
     resets .resetNAssert 1 ∧
     (∀ (ini : Initiator) (key : Byte), (key = 0xC3 → b.rstPend = none → resets (.sysRstCmd ini key) 2) ∧
       (key ≠ 0xC3 → Gives (.sysRstCmd ini key) s s)) ∧
     (∀ t0, s.bat.wakeReset = some t0 → t0 ≤ s.now → b.rstPend = none → resets .shipWake 3) ∧
     (∀ t0, s.bat.wakeReset = some t0 → s.now < t0 → Gives .shipWake s s) ∧ (s.bat.wakeReset = none → Gives .shipWake s s)) ∧
    (∀ straps, (b.stage = .pll → Gives (.resetNRelease straps) s { s with host := { s.host with straps := straps }, boot := { b with held := false } }) ∧
      (b.stage ≠ .pll → b.rstPend = some 1 →
        Gives (.resetNRelease straps) s { s with host := { s.host with straps := straps }, boot := { b with freed := true } }) ∧
      (b.stage ≠ .pll → b.rstPend ≠ some 1 → Gives (.resetNRelease straps) s s)) ∧
    (let parts : Vector PartSt 8 := Vector.ofFn fun i : Fin 8 => match s.nvm.sysPart[i] with
       | some d => { en := d.en, rpw := d.rpw, wpw := d.wpw, first := d.first, count := d.count, rdPw := d.rdPw, wrPw := d.wrPw }
       | none => {}
     let locked (st : BootStage) : State := { s with
       clk := { s.clk with pllLock := true, refOk := true }, time := { s.time with fresh := true }, boot := { b with stage := st } }
     (b.stage = .pll → b.held = false → b.cause = 0 ∨ s.otp.seen = false → Gives .pllLock s
       (State.dev (locked .fuses) 0x050 2 [s.time.epoch.setWidth 32, s.time.tick.setWidth 32, (s.time.tick >>> 32).setWidth 32])) ∧
     (b.stage = .pll → b.held = false → b.cause ≠ 0 → s.otp.seen = true → Does .pllLock s fun t =>
       t = { locked .image with nvm := { s.nvm with marker := none, part := parts }, log := t.log }) ∧
     (b.stage ≠ .pll ∨ b.held = true → Gives .pllLock s s) ∧
     (∀ rs : List FuseReading,
       let word (w : Nat) : Word × Word := match rs.find? fun r => r.w.toNat = w with | some r => (r.normal, r.margin) | none => (s.otp.copyA.toArray.getD w 0 ||| s.otp.copyB.toArray.getD w 0, s.otp.copyA.toArray.getD w 0 ||| s.otp.copyB.toArray.getD w 0)
       (b.stage ≠ .fuses → Gives (.fuseSenseDone rs) s s) ∧
       (b.stage = .fuses → Does (.fuseSenseDone rs) s fun t =>
         t = { s with boot := { b with stage := .image }, nvm := { s.nvm with marker := none, part := parts }, feat := t.feat, log := t.log,
                      otp := { s.otp with copyA := t.otp.copyA, seen := true, data := t.otp.data, marginal := t.otp.marginal, region := t.otp.region, cause := t.otp.cause, part := t.otp.part } } ∧
         (∀ w : Fin 256, t.otp.data[w] = (word w.val).1 ∧ t.otp.marginal.getLsbD w.val = decide ((word w.val).1 ≠ (word w.val).2)) ∧
         (∀ w : Fin 256, t.otp.copyA[w] = s.otp.copyA[w] ||| (rs.filter fun r => decide (r.w.toNat = w.val)).foldl (fun v r => v ||| r.normal) 0) ∧
         (∀ r : Fin 16, (∀ i : Fin 16, (word (16 * r.val + i.val)).1 = 0) → t.otp.region[r] = 0) ∧
         (∀ r : Fin 16, r ≠ 15 → (word (16 * r.val + 15)).1 = sealFor t.otp.data r.val → t.otp.region[r] = 2) ∧
         (let m : BitVec 16 := (word 16).1.setWidth 16
          let good := t.otp.region[(1 : Fin 16)] = 2 ∧ ((word 16).1 >>> 16).setWidth 16 = ~~~ m ∧ maskOk m = true
          (good → t.feat = m ∧ t.otp.cause = 0) ∧ (¬ good → t.feat = 0 ∧ t.otp.cause ≠ 0))))) ∧
    (b.stage ≠ .image → Gives .imageLoadDone s s) ∧
    (b.stage = .image →
      let slot := match b.failed with | some f => !f | none => s.firstSlot
      let noted (e : BitVec 4) : BootSt := if slot then { b with reasonB := e } else { b with reasonA := e }
      let fails (e : BitVec 4) : Prop := Does .imageLoadDone s fun t =>
        t = { goes (if b.failed = none then { noted e with failed := some slot } else { noted e with stage := .halted, halt := true }) with log := t.log }
      (∀ u, s.loadSlot slot = .ok u → Does .imageLoadDone s fun t => t = { u with boot := { u.boot with stage := .blackBox }, log := t.log }) ∧
      (∀ e l, s.loadSlot slot = .error (e, l) → fails (BitVec.ofNat 4 e)) ∧
      (s.imgNum (if slot then 0xC0000 else 0) 4 ≠ 0x4C484B48 → fails 1)) ∧
    (b.stage ≠ .blackBox → Gives .bbValidationDone s s) ∧
    (b.stage = .blackBox → let cfg := s.reg 0xC0000
      Does .bbValidationDone s fun t =>
        (s.bbSlot false = none → s.bbSlot true = none → t.log.bb = s.log.bb) ∧
        (∀ q k, s.bbSlot false = some (q, k) → s.bbSlot true = none → t.log.bb.valid = true ∧ t.log.bb.slot = false ∧ t.log.bb.seq = q) ∧
        (∀ q k, s.bbSlot false = none → s.bbSlot true = some (q, k) → t.log.bb.valid = true ∧ t.log.bb.slot = true ∧ t.log.bb.seq = q) ∧
        t.regs = s.regs ∧ t.mem = s.mem ∧
        (s.hasPair = true → cfg.getLsbD 30 = true → t.boot = { b with stage := .start, lastStep := s.now } ∧ t.pr = { s.pr with role := .witness }) ∧
        (s.hasPair = true → cfg.getLsbD 30 = false → cfg.getLsbD 31 = true → t.boot = { b with stage := .role, roleEnd := some (s.now + 2000) } ∧
          t.pr = { s.pr with hdrAt := s.now, validAt := s.now }) ∧
        (s.hasPair = false ∨ (cfg.getLsbD 30 = false ∧ cfg.getLsbD 31 = false) → t.boot = { b with stage := .start, lastStep := s.now } ∧ t.pr = s.pr)) ∧
    (∀ e, b.roleEnd = some e →
      (b.stage = .role → e ≤ s.now → s.pins.witGrant = true → Does .pairRoleWindowExpire s fun t => t = { s with
        boot := { b with stage := .start, lastStep := s.now, roleEnd := none }, log := t.log
        pr := { s.pr with role := .active, solo := true } }) ∧
      (b.stage = .role → e ≤ s.now → s.pins.witGrant = false → Does .pairRoleWindowExpire s fun t =>
        t.boot = { b with stage := .start, lastStep := s.now, roleEnd := none } ∧ t.pr = { s.pr with role := .syncing } ∧ t.fbx = { s.fbx with halted := true } ∧
        t.stk.fLive = false ∧ t.regs = s.regs ∧ t.mem = s.mem ∧ (∀ o : Fin 4, t.link.port[o].st = if s.link.port[o].st = 2 then 1 else s.link.port[o].st) ∧
        t.twi[(1 : Fin 3)].cx = none ∧ t.twi[(2 : Fin 3)].cx = none ∧ t.twi[(0 : Fin 3)] = s.twi[(0 : Fin 3)]) ∧
      (b.stage ≠ .role ∨ s.now < e → Gives .pairRoleWindowExpire s s)) ∧
    (b.roleEnd = none → Gives .pairRoleWindowExpire s s) ∧
    (b.stage ≠ .start ∨ s.now ≤ b.lastStep → Gives .boot s s) ∧
    (b.stage = .start → b.lastStep < s.now → let runs := s.pr.role = .unpaired ∨ s.pr.role = .active ∨ s.pr.role = .witness
      Does .boot s fun t => t = { goes { b with stage := .done, ticks := s.time.tick.setWidth 20 } with stk := t.stk, log := t.log } ∧
        (runs → t.stk = { s.stk with b := .running, thB := { s.stk.thB with pc := b.entryB } }) ∧ (¬ runs → t.stk = s.stk)) ∧
    (∀ (ini : Initiator) (k : BitVec 2),
      let c : Instr := if k = 0 then .run ini else if k = 1 then .idle ini else if k = 2 then .sleep ini else .ship ini
      (s.pwr.busy = true → Gives c s (s.flagErr 29 0x94)) ∧ (s.pwr.busy = false → Gives c s { s with pwr := { s.pwr with req := some (k, s.now), reqAt := 0x94 } })) ∧
    (let p := s.pwr
     let off := ∀ g : Fin 16, s.phs.rail[g].state = .off ∨ s.phs.rail[g].state = .latched
     let alone := s.pr.role = .unpaired
     let quiet := alone ∧ s.nvm.cur = none ∧ s.nvm.queue = [] ∧ s.log.bb.queue = []
     let q : PwrSt := { p with req := none, wakeDue := 0 }
     let at_ (x : PwrSt) : State := { s with pwr := x }
     let blank : SnsSt := { s.sns with raw := Vector.replicate 96 0, sample := Vector.replicate 96 0, val := Vector.replicate 96 0 }
     let asleep (x : PwrSt) (t : State) : Prop :=
       t = { at_ x with fbx := { s.fbx with halted := true }, twi := t.twi, log := t.log, sns := blank, thm := { s.thm with stop := none }
                        stk := { s.stk with bGated := true, fLive := false } } ∧
       ∀ i : Fin 3, t.twi[i] = { s.twi[i] with asleep := true }
     let shipped (x : PwrSt) (t : State) : Prop :=
       t = { at_ x with fbx := { s.fbx with halted := true }, twi := t.twi, log := t.log, sns := blank, thm := { s.thm with stop := none }
                        stk := { s.stk with bGated := true, fLive := false }, emb := { s.emb with hold := t.emb.hold } } ∧
       (∀ n : Fin 3, t.twi[n] = if n ≠ 0 ∧ s.twi[n].cx.isSome = true then { s.twi[n] with cx := none, cxLoss := 0, cxOn := false, status := 7, asleep := true }
         else if n = 2 ∧ s.enfOnBus = true then { s.twi[n] with cxLoss := 0, asleep := true } else { s.twi[n] with asleep := true }) ∧
       ∀ h : Fin 256, t.emb.hold[h] = if s.enfOnBus = true then { s.emb.hold[h] with enf := { s.emb.hold[h].enf with
         onBus := false, need := s.emb.hold[h].enf.need || s.emb.hold[h].enf.onBus } } else s.emb.hold[h]
     (∀ st t0, p.req = some (st, t0) → s.cycle = 0 → t0 < s.now →
       let c := Instr.powerState
       let refused : Prop := Gives c s (State.flagErr (at_ q) 29 p.reqAt)
       (p.busy = true → refused) ∧
       (p.busy = false →
         (p.state = 0 → st = 1 → off → Does c s fun t => t = { at_ { q with state := 1 } with log := t.log }) ∧ (p.state = 0 → st = 1 → ¬ off → refused) ∧
         (p.state = 1 → st = 0 → Gives c s (at_ { q with busy := true, settleEnd := s.now + 20 })) ∧
         (p.state = 1 → st = 2 → ¬ quiet → refused) ∧
         (p.state = 1 → st = 2 → quiet → p.wakeDue ≠ 0 → Gives c s (at_ { q with wake := p.wakeDue })) ∧
         (p.state = 1 → st = 2 → quiet → p.wakeDue = 0 → let n := (s.reg 0x90).toNat / 65536
           Does c s (asleep { q with state := 2, sfLeft := if n ≠ 0 ∧ (s.reg 0x90).getLsbD 7 = true then some n else none })) ∧
         (p.state = 1 → st = 3 → s.bat.ship = true → alone → Does c s (shipped { q with state := 3 })) ∧
         (p.state = 1 → st = 3 → s.bat.ship = false ∨ ¬ alone → refused) ∧
         (¬ (p.state = 0 ∧ st = 1) → ¬ (p.state = 1 ∧ st ≠ 1) → refused))) ∧
     (p.req = none ∨ s.cycle ≠ 0 → Gives .powerState s s) ∧
     (p.busy = true → p.settleEnd ≤ s.now → Does .analogSettled s fun t => t = { at_ { p with busy := false, state := 0 } with log := t.log }) ∧
     (p.busy = false ∨ s.now < p.settleEnd → Gives .analogSettled s s) ∧
     (∀ src : Fin 8,
       let due := p.state = 2 ∧ s.cycle = 0 ∧ (s.reg 0x90).getLsbD src.val = true ∧ (p.wakeDue.getLsbD src.val = true ∨ src = 6)
       (due → Does (.sleepWake src) s fun t => t = { at_ { p with state := 1, wake := p.wakeDue ||| (1 : Byte) <<< src.val, wakeDue := 0, sfLeft := none } with fbx := { s.fbx with halted := s.inStandby }, stk := { s.stk with bGated := false, evpend := t.stk.evpend, evAt := t.stk.evAt, evNew := t.stk.evNew, evWas := t.stk.evWas }, log := t.log } ∧
         (src.val ≤ 1 → t.stk.evpend.getLsbD 10 = true) ∧ (src = 5 → t.stk.evpend.getLsbD 6 = true) ∧ (src = 6 → t.stk.evpend.getLsbD 4 = true) ∧
         (src = 7 → t.stk.evpend.getLsbD 1 = true) ∧ s.stk.evpend &&& t.stk.evpend = s.stk.evpend) ∧
       (¬ due → Gives (.sleepWake src) s s)))
end

