-- ==== Sys2Proof/Laws/Decode.lean ====
section
/-! SUPPORT. The fields of the three instruction formats read back (03_lerzia.md R70). -/

namespace Sys2Proof

section
variable (op : BitVec 6) (a b c : Reg) (fn : BitVec 11) (imm : BitVec 16) (off : BitVec 21)

@[simp] theorem fOp_rForm : fOp (rForm op a b c fn) = op := by
  apply BitVec.eq_of_getLsbD_eq; intro i hi
  simp only [fOp, rForm, BitVec.getLsbD_extractLsb', BitVec.getLsbD_append, hi, decide_true, Bool.true_and]
  repeat' split
  all_goals first | omega | (congr 1; omega)
@[simp] theorem fRd_rForm : fRd (rForm op a b c fn) = a := by
  apply BitVec.eq_of_getLsbD_eq; intro i hi
  simp only [fRd, rForm, BitVec.getLsbD_extractLsb', BitVec.getLsbD_append, hi, decide_true, Bool.true_and]
  repeat' split
  all_goals first | omega | (congr 1; omega)
@[simp] theorem fRs1_rForm : fRs1 (rForm op a b c fn) = b := by
  apply BitVec.eq_of_getLsbD_eq; intro i hi
  simp only [fRs1, rForm, BitVec.getLsbD_extractLsb', BitVec.getLsbD_append, hi, decide_true, Bool.true_and]
  repeat' split
  all_goals first | omega | (congr 1; omega)
@[simp] theorem fRs2_rForm : fRs2 (rForm op a b c fn) = c := by
  apply BitVec.eq_of_getLsbD_eq; intro i hi
  simp only [fRs2, rForm, BitVec.getLsbD_extractLsb', BitVec.getLsbD_append, hi, decide_true, Bool.true_and]
  repeat' split
  all_goals first | omega | (congr 1; omega)
@[simp] theorem fFn_rForm : fFn (rForm op a b c fn) = fn := by
  apply BitVec.eq_of_getLsbD_eq; intro i hi
  simp only [fFn, rForm, BitVec.getLsbD_extractLsb', BitVec.getLsbD_append, hi, decide_true, Bool.true_and]
  repeat' split
  all_goals first | omega | (congr 1; omega)
@[simp] theorem fOp_iForm : fOp (iForm op a b imm) = op := by
  apply BitVec.eq_of_getLsbD_eq; intro i hi
  simp only [fOp, iForm, BitVec.getLsbD_extractLsb', BitVec.getLsbD_append, hi, decide_true, Bool.true_and]
  repeat' split
  all_goals first | omega | (congr 1; omega)
@[simp] theorem fRd_iForm : fRd (iForm op a b imm) = a := by
  apply BitVec.eq_of_getLsbD_eq; intro i hi
  simp only [fRd, iForm, BitVec.getLsbD_extractLsb', BitVec.getLsbD_append, hi, decide_true, Bool.true_and]
  repeat' split
  all_goals first | omega | (congr 1; omega)
@[simp] theorem fRs1_iForm : fRs1 (iForm op a b imm) = b := by
  apply BitVec.eq_of_getLsbD_eq; intro i hi
  simp only [fRs1, iForm, BitVec.getLsbD_extractLsb', BitVec.getLsbD_append, hi, decide_true, Bool.true_and]
  repeat' split
  all_goals first | omega | (congr 1; omega)
@[simp] theorem fImm_iForm : fImm (iForm op a b imm) = imm := by
  apply BitVec.eq_of_getLsbD_eq; intro i hi
  simp only [fImm, iForm, BitVec.getLsbD_extractLsb', BitVec.getLsbD_append, hi, decide_true, Bool.true_and]
  repeat' split
  all_goals first | omega | (congr 1; omega)
@[simp] theorem fOp_jForm : fOp (jForm a off) = 0x26 := by
  apply BitVec.eq_of_getLsbD_eq; intro i hi
  simp only [fOp, jForm, BitVec.getLsbD_extractLsb', BitVec.getLsbD_append, hi, decide_true, Bool.true_and]
  repeat' split
  all_goals first | omega | (congr 1; omega)
@[simp] theorem fRd_jForm : fRd (jForm a off) = a := by
  apply BitVec.eq_of_getLsbD_eq; intro i hi
  simp only [fRd, jForm, BitVec.getLsbD_extractLsb', BitVec.getLsbD_append, hi, decide_true, Bool.true_and]
  repeat' split
  all_goals first | omega | (congr 1; omega)
@[simp] theorem fOff_jForm : fOff (jForm a off) = off := by
  apply BitVec.eq_of_getLsbD_eq; intro i hi
  simp only [fOff, jForm, BitVec.getLsbD_extractLsb', BitVec.getLsbD_append, hi, decide_true, Bool.true_and]
  repeat' split
  all_goals first | omega | (congr 1; omega)
end

/-- A field that names an FP register reads back. -/
@[simp] theorem fpOf_fReg (f : FReg) : fpOf (fReg f) = some f := by revert f; decide

/-- The count of a shift immediate reads back. -/
@[simp] theorem shImm_count (k : BitVec 2) (sh : BitVec 5) : (shImm k sh).setWidth 5 = sh := by revert k sh; decide
/-- So does its kind. -/
@[simp] theorem shImm_kind (k : BitVec 2) (sh : BitVec 5) : (shImm k sh).toNat >>> 5 % 2048 = k.toNat := by revert k sh; decide
@[simp] theorem fpOf_zero : fpOf 0 = some 0 := by decide

end Sys2Proof
end

