-- ==== Sys2Proof/Laws/State.lean ====
section
/-! SUPPORT. One lemma per field per named update of the state: what an update leaves as it was. -/

namespace Sys2Proof.Machine

variable (s : State)

@[simp] theorem State.modTh_pending (th : Thread) (f : ThreadSt → ThreadSt) : (s.modTh th f).pending = s.pending := by cases th <;> rfl
@[simp] theorem State.modTh_now (th : Thread) (f : ThreadSt → ThreadSt) : (s.modTh th f).now = s.now := by cases th <;> rfl
@[simp] theorem State.modTh_cycle (th : Thread) (f : ThreadSt → ThreadSt) : (s.modTh th f).cycle = s.cycle := by cases th <;> rfl
@[simp] theorem State.modTh_freeCtr (th : Thread) (f : ThreadSt → ThreadSt) : (s.modTh th f).freeCtr = s.freeCtr := by cases th <;> rfl
@[simp] theorem State.modTh_regs (th : Thread) (f : ThreadSt → ThreadSt) : (s.modTh th f).regs = s.regs := by cases th <;> rfl
@[simp] theorem State.modTh_shadow (th : Thread) (f : ThreadSt → ThreadSt) : (s.modTh th f).shadow = s.shadow := by cases th <;> rfl
@[simp] theorem State.modTh_openPairs (th : Thread) (f : ThreadSt → ThreadSt) : (s.modTh th f).openPairs = s.openPairs := by cases th <;> rfl
@[simp] theorem State.modTh_mem (th : Thread) (f : ThreadSt → ThreadSt) : (s.modTh th f).mem = s.mem := by cases th <;> rfl
@[simp] theorem State.modTh_ecc (th : Thread) (f : ThreadSt → ThreadSt) : (s.modTh th f).ecc = s.ecc := by cases th <;> rfl
@[simp] theorem State.modTh_pins (th : Thread) (f : ThreadSt → ThreadSt) : (s.modTh th f).pins = s.pins := by cases th <;> rfl
@[simp] theorem State.modTh_sys (th : Thread) (f : ThreadSt → ThreadSt) : (s.modTh th f).sys = s.sys := by cases th <;> rfl
@[simp] theorem State.modTh_clk (th : Thread) (f : ThreadSt → ThreadSt) : (s.modTh th f).clk = s.clk := by cases th <;> rfl
@[simp] theorem State.modTh_time (th : Thread) (f : ThreadSt → ThreadSt) : (s.modTh th f).time = s.time := by cases th <;> rfl
@[simp] theorem State.modTh_boot (th : Thread) (f : ThreadSt → ThreadSt) : (s.modTh th f).boot = s.boot := by cases th <;> rfl
@[simp] theorem State.modTh_pwr (th : Thread) (f : ThreadSt → ThreadSt) : (s.modTh th f).pwr = s.pwr := by cases th <;> rfl
@[simp] theorem State.modTh_log (th : Thread) (f : ThreadSt → ThreadSt) : (s.modTh th f).log = s.log := by cases th <;> rfl
@[simp] theorem State.modTh_seq (th : Thread) (f : ThreadSt → ThreadSt) : (s.modTh th f).seq = s.seq := by cases th <;> rfl
@[simp] theorem State.modTh_sns (th : Thread) (f : ThreadSt → ThreadSt) : (s.modTh th f).sns = s.sns := by cases th <;> rfl
@[simp] theorem State.modTh_fbx (th : Thread) (f : ThreadSt → ThreadSt) : (s.modTh th f).fbx = s.fbx := by cases th <;> rfl
@[simp] theorem State.modTh_phs (th : Thread) (f : ThreadSt → ThreadSt) : (s.modTh th f).phs = s.phs := by cases th <;> rfl
@[simp] theorem State.modTh_dft (th : Thread) (f : ThreadSt → ThreadSt) : (s.modTh th f).dft = s.dft := by cases th <;> rfl
@[simp] theorem State.modTh_emb (th : Thread) (f : ThreadSt → ThreadSt) : (s.modTh th f).emb = s.emb := by cases th <;> rfl
@[simp] theorem State.modTh_thm (th : Thread) (f : ThreadSt → ThreadSt) : (s.modTh th f).thm = s.thm := by cases th <;> rfl
@[simp] theorem State.modTh_bat (th : Thread) (f : ThreadSt → ThreadSt) : (s.modTh th f).bat = s.bat := by cases th <;> rfl
@[simp] theorem State.modTh_nvm (th : Thread) (f : ThreadSt → ThreadSt) : (s.modTh th f).nvm = s.nvm := by cases th <;> rfl
@[simp] theorem State.modTh_otp (th : Thread) (f : ThreadSt → ThreadSt) : (s.modTh th f).otp = s.otp := by cases th <;> rfl
@[simp] theorem State.modTh_twi (th : Thread) (f : ThreadSt → ThreadSt) : (s.modTh th f).twi = s.twi := by cases th <;> rfl
@[simp] theorem State.modTh_host (th : Thread) (f : ThreadSt → ThreadSt) : (s.modTh th f).host = s.host := by cases th <;> rfl
@[simp] theorem State.modTh_spi (th : Thread) (f : ThreadSt → ThreadSt) : (s.modTh th f).spi = s.spi := by cases th <;> rfl
@[simp] theorem State.modTh_link (th : Thread) (f : ThreadSt → ThreadSt) : (s.modTh th f).link = s.link := by cases th <;> rfl
@[simp] theorem State.modTh_pr (th : Thread) (f : ThreadSt → ThreadSt) : (s.modTh th f).pr = s.pr := by cases th <;> rfl
@[simp] theorem State.modTh_feat (th : Thread) (f : ThreadSt → ThreadSt) : (s.modTh th f).feat = s.feat := by cases th <;> rfl

@[simp] theorem State.setGr_pending (th : Thread) (r : Reg) (v : Word) : (s.setGr th r v).pending = s.pending := by cases th <;> rfl
@[simp] theorem State.setGr_now (th : Thread) (r : Reg) (v : Word) : (s.setGr th r v).now = s.now := by cases th <;> rfl
@[simp] theorem State.setGr_cycle (th : Thread) (r : Reg) (v : Word) : (s.setGr th r v).cycle = s.cycle := by cases th <;> rfl
@[simp] theorem State.setGr_freeCtr (th : Thread) (r : Reg) (v : Word) : (s.setGr th r v).freeCtr = s.freeCtr := by cases th <;> rfl
@[simp] theorem State.setGr_regs (th : Thread) (r : Reg) (v : Word) : (s.setGr th r v).regs = s.regs := by cases th <;> rfl
@[simp] theorem State.setGr_shadow (th : Thread) (r : Reg) (v : Word) : (s.setGr th r v).shadow = s.shadow := by cases th <;> rfl
@[simp] theorem State.setGr_openPairs (th : Thread) (r : Reg) (v : Word) : (s.setGr th r v).openPairs = s.openPairs := by cases th <;> rfl
@[simp] theorem State.setGr_mem (th : Thread) (r : Reg) (v : Word) : (s.setGr th r v).mem = s.mem := by cases th <;> rfl
@[simp] theorem State.setGr_ecc (th : Thread) (r : Reg) (v : Word) : (s.setGr th r v).ecc = s.ecc := by cases th <;> rfl
@[simp] theorem State.setGr_pins (th : Thread) (r : Reg) (v : Word) : (s.setGr th r v).pins = s.pins := by cases th <;> rfl
@[simp] theorem State.setGr_sys (th : Thread) (r : Reg) (v : Word) : (s.setGr th r v).sys = s.sys := by cases th <;> rfl
@[simp] theorem State.setGr_clk (th : Thread) (r : Reg) (v : Word) : (s.setGr th r v).clk = s.clk := by cases th <;> rfl
@[simp] theorem State.setGr_time (th : Thread) (r : Reg) (v : Word) : (s.setGr th r v).time = s.time := by cases th <;> rfl
@[simp] theorem State.setGr_boot (th : Thread) (r : Reg) (v : Word) : (s.setGr th r v).boot = s.boot := by cases th <;> rfl
@[simp] theorem State.setGr_pwr (th : Thread) (r : Reg) (v : Word) : (s.setGr th r v).pwr = s.pwr := by cases th <;> rfl
@[simp] theorem State.setGr_log (th : Thread) (r : Reg) (v : Word) : (s.setGr th r v).log = s.log := by cases th <;> rfl
@[simp] theorem State.setGr_seq (th : Thread) (r : Reg) (v : Word) : (s.setGr th r v).seq = s.seq := by cases th <;> rfl
@[simp] theorem State.setGr_sns (th : Thread) (r : Reg) (v : Word) : (s.setGr th r v).sns = s.sns := by cases th <;> rfl
@[simp] theorem State.setGr_fbx (th : Thread) (r : Reg) (v : Word) : (s.setGr th r v).fbx = s.fbx := by cases th <;> rfl
@[simp] theorem State.setGr_phs (th : Thread) (r : Reg) (v : Word) : (s.setGr th r v).phs = s.phs := by cases th <;> rfl
@[simp] theorem State.setGr_dft (th : Thread) (r : Reg) (v : Word) : (s.setGr th r v).dft = s.dft := by cases th <;> rfl
@[simp] theorem State.setGr_emb (th : Thread) (r : Reg) (v : Word) : (s.setGr th r v).emb = s.emb := by cases th <;> rfl
@[simp] theorem State.setGr_thm (th : Thread) (r : Reg) (v : Word) : (s.setGr th r v).thm = s.thm := by cases th <;> rfl
@[simp] theorem State.setGr_bat (th : Thread) (r : Reg) (v : Word) : (s.setGr th r v).bat = s.bat := by cases th <;> rfl
@[simp] theorem State.setGr_nvm (th : Thread) (r : Reg) (v : Word) : (s.setGr th r v).nvm = s.nvm := by cases th <;> rfl
@[simp] theorem State.setGr_otp (th : Thread) (r : Reg) (v : Word) : (s.setGr th r v).otp = s.otp := by cases th <;> rfl
@[simp] theorem State.setGr_twi (th : Thread) (r : Reg) (v : Word) : (s.setGr th r v).twi = s.twi := by cases th <;> rfl
@[simp] theorem State.setGr_host (th : Thread) (r : Reg) (v : Word) : (s.setGr th r v).host = s.host := by cases th <;> rfl
@[simp] theorem State.setGr_spi (th : Thread) (r : Reg) (v : Word) : (s.setGr th r v).spi = s.spi := by cases th <;> rfl
@[simp] theorem State.setGr_link (th : Thread) (r : Reg) (v : Word) : (s.setGr th r v).link = s.link := by cases th <;> rfl
@[simp] theorem State.setGr_pr (th : Thread) (r : Reg) (v : Word) : (s.setGr th r v).pr = s.pr := by cases th <;> rfl
@[simp] theorem State.setGr_feat (th : Thread) (r : Reg) (v : Word) : (s.setGr th r v).feat = s.feat := by cases th <;> rfl

@[simp] theorem State.setFr_pending (th : Thread) (r : FReg) (v : Word) : (s.setFr th r v).pending = s.pending := by cases th <;> rfl
@[simp] theorem State.setFr_now (th : Thread) (r : FReg) (v : Word) : (s.setFr th r v).now = s.now := by cases th <;> rfl
@[simp] theorem State.setFr_cycle (th : Thread) (r : FReg) (v : Word) : (s.setFr th r v).cycle = s.cycle := by cases th <;> rfl
@[simp] theorem State.setFr_freeCtr (th : Thread) (r : FReg) (v : Word) : (s.setFr th r v).freeCtr = s.freeCtr := by cases th <;> rfl
@[simp] theorem State.setFr_regs (th : Thread) (r : FReg) (v : Word) : (s.setFr th r v).regs = s.regs := by cases th <;> rfl
@[simp] theorem State.setFr_shadow (th : Thread) (r : FReg) (v : Word) : (s.setFr th r v).shadow = s.shadow := by cases th <;> rfl
@[simp] theorem State.setFr_openPairs (th : Thread) (r : FReg) (v : Word) : (s.setFr th r v).openPairs = s.openPairs := by cases th <;> rfl
@[simp] theorem State.setFr_mem (th : Thread) (r : FReg) (v : Word) : (s.setFr th r v).mem = s.mem := by cases th <;> rfl
@[simp] theorem State.setFr_ecc (th : Thread) (r : FReg) (v : Word) : (s.setFr th r v).ecc = s.ecc := by cases th <;> rfl
@[simp] theorem State.setFr_pins (th : Thread) (r : FReg) (v : Word) : (s.setFr th r v).pins = s.pins := by cases th <;> rfl
@[simp] theorem State.setFr_sys (th : Thread) (r : FReg) (v : Word) : (s.setFr th r v).sys = s.sys := by cases th <;> rfl
@[simp] theorem State.setFr_clk (th : Thread) (r : FReg) (v : Word) : (s.setFr th r v).clk = s.clk := by cases th <;> rfl
@[simp] theorem State.setFr_time (th : Thread) (r : FReg) (v : Word) : (s.setFr th r v).time = s.time := by cases th <;> rfl
@[simp] theorem State.setFr_boot (th : Thread) (r : FReg) (v : Word) : (s.setFr th r v).boot = s.boot := by cases th <;> rfl
@[simp] theorem State.setFr_pwr (th : Thread) (r : FReg) (v : Word) : (s.setFr th r v).pwr = s.pwr := by cases th <;> rfl
@[simp] theorem State.setFr_log (th : Thread) (r : FReg) (v : Word) : (s.setFr th r v).log = s.log := by cases th <;> rfl
@[simp] theorem State.setFr_seq (th : Thread) (r : FReg) (v : Word) : (s.setFr th r v).seq = s.seq := by cases th <;> rfl
@[simp] theorem State.setFr_sns (th : Thread) (r : FReg) (v : Word) : (s.setFr th r v).sns = s.sns := by cases th <;> rfl
@[simp] theorem State.setFr_fbx (th : Thread) (r : FReg) (v : Word) : (s.setFr th r v).fbx = s.fbx := by cases th <;> rfl
@[simp] theorem State.setFr_phs (th : Thread) (r : FReg) (v : Word) : (s.setFr th r v).phs = s.phs := by cases th <;> rfl
@[simp] theorem State.setFr_dft (th : Thread) (r : FReg) (v : Word) : (s.setFr th r v).dft = s.dft := by cases th <;> rfl
@[simp] theorem State.setFr_emb (th : Thread) (r : FReg) (v : Word) : (s.setFr th r v).emb = s.emb := by cases th <;> rfl
@[simp] theorem State.setFr_thm (th : Thread) (r : FReg) (v : Word) : (s.setFr th r v).thm = s.thm := by cases th <;> rfl
@[simp] theorem State.setFr_bat (th : Thread) (r : FReg) (v : Word) : (s.setFr th r v).bat = s.bat := by cases th <;> rfl
@[simp] theorem State.setFr_nvm (th : Thread) (r : FReg) (v : Word) : (s.setFr th r v).nvm = s.nvm := by cases th <;> rfl
@[simp] theorem State.setFr_otp (th : Thread) (r : FReg) (v : Word) : (s.setFr th r v).otp = s.otp := by cases th <;> rfl
@[simp] theorem State.setFr_twi (th : Thread) (r : FReg) (v : Word) : (s.setFr th r v).twi = s.twi := by cases th <;> rfl
@[simp] theorem State.setFr_host (th : Thread) (r : FReg) (v : Word) : (s.setFr th r v).host = s.host := by cases th <;> rfl
@[simp] theorem State.setFr_spi (th : Thread) (r : FReg) (v : Word) : (s.setFr th r v).spi = s.spi := by cases th <;> rfl
@[simp] theorem State.setFr_link (th : Thread) (r : FReg) (v : Word) : (s.setFr th r v).link = s.link := by cases th <;> rfl
@[simp] theorem State.setFr_pr (th : Thread) (r : FReg) (v : Word) : (s.setFr th r v).pr = s.pr := by cases th <;> rfl
@[simp] theorem State.setFr_feat (th : Thread) (r : FReg) (v : Word) : (s.setFr th r v).feat = s.feat := by cases th <;> rfl

@[simp] theorem State.spend_pending (c : Nat) : (s.spend c).pending = s.pending := rfl
@[simp] theorem State.spend_now (c : Nat) : (s.spend c).now = s.now := rfl
@[simp] theorem State.spend_freeCtr (c : Nat) : (s.spend c).freeCtr = s.freeCtr := rfl
@[simp] theorem State.spend_regs (c : Nat) : (s.spend c).regs = s.regs := rfl
@[simp] theorem State.spend_shadow (c : Nat) : (s.spend c).shadow = s.shadow := rfl
@[simp] theorem State.spend_openPairs (c : Nat) : (s.spend c).openPairs = s.openPairs := rfl
@[simp] theorem State.spend_mem (c : Nat) : (s.spend c).mem = s.mem := rfl
@[simp] theorem State.spend_ecc (c : Nat) : (s.spend c).ecc = s.ecc := rfl
@[simp] theorem State.spend_pins (c : Nat) : (s.spend c).pins = s.pins := rfl
@[simp] theorem State.spend_sys (c : Nat) : (s.spend c).sys = s.sys := rfl
@[simp] theorem State.spend_clk (c : Nat) : (s.spend c).clk = s.clk := rfl
@[simp] theorem State.spend_time (c : Nat) : (s.spend c).time = s.time := rfl
@[simp] theorem State.spend_boot (c : Nat) : (s.spend c).boot = s.boot := rfl
@[simp] theorem State.spend_pwr (c : Nat) : (s.spend c).pwr = s.pwr := rfl
@[simp] theorem State.spend_log (c : Nat) : (s.spend c).log = s.log := rfl
@[simp] theorem State.spend_stk (c : Nat) : (s.spend c).stk = s.stk := rfl
@[simp] theorem State.spend_seq (c : Nat) : (s.spend c).seq = s.seq := rfl
@[simp] theorem State.spend_sns (c : Nat) : (s.spend c).sns = s.sns := rfl
@[simp] theorem State.spend_fbx (c : Nat) : (s.spend c).fbx = s.fbx := rfl
@[simp] theorem State.spend_phs (c : Nat) : (s.spend c).phs = s.phs := rfl
@[simp] theorem State.spend_dft (c : Nat) : (s.spend c).dft = s.dft := rfl
@[simp] theorem State.spend_emb (c : Nat) : (s.spend c).emb = s.emb := rfl
@[simp] theorem State.spend_thm (c : Nat) : (s.spend c).thm = s.thm := rfl
@[simp] theorem State.spend_bat (c : Nat) : (s.spend c).bat = s.bat := rfl
@[simp] theorem State.spend_nvm (c : Nat) : (s.spend c).nvm = s.nvm := rfl
@[simp] theorem State.spend_otp (c : Nat) : (s.spend c).otp = s.otp := rfl
@[simp] theorem State.spend_twi (c : Nat) : (s.spend c).twi = s.twi := rfl
@[simp] theorem State.spend_host (c : Nat) : (s.spend c).host = s.host := rfl
@[simp] theorem State.spend_spi (c : Nat) : (s.spend c).spi = s.spi := rfl
@[simp] theorem State.spend_link (c : Nat) : (s.spend c).link = s.link := rfl
@[simp] theorem State.spend_pr (c : Nat) : (s.spend c).pr = s.pr := rfl
@[simp] theorem State.spend_feat (c : Nat) : (s.spend c).feat = s.feat := rfl

@[simp] theorem State.drawn_pending : (s.drawn).pending = s.pending := rfl
@[simp] theorem State.drawn_now : (s.drawn).now = s.now := rfl
@[simp] theorem State.drawn_cycle : (s.drawn).cycle = s.cycle := rfl
@[simp] theorem State.drawn_regs : (s.drawn).regs = s.regs := rfl
@[simp] theorem State.drawn_shadow : (s.drawn).shadow = s.shadow := rfl
@[simp] theorem State.drawn_openPairs : (s.drawn).openPairs = s.openPairs := rfl
@[simp] theorem State.drawn_mem : (s.drawn).mem = s.mem := rfl
@[simp] theorem State.drawn_ecc : (s.drawn).ecc = s.ecc := rfl
@[simp] theorem State.drawn_pins : (s.drawn).pins = s.pins := rfl
@[simp] theorem State.drawn_sys : (s.drawn).sys = s.sys := rfl
@[simp] theorem State.drawn_clk : (s.drawn).clk = s.clk := rfl
@[simp] theorem State.drawn_time : (s.drawn).time = s.time := rfl
@[simp] theorem State.drawn_boot : (s.drawn).boot = s.boot := rfl
@[simp] theorem State.drawn_pwr : (s.drawn).pwr = s.pwr := rfl
@[simp] theorem State.drawn_log : (s.drawn).log = s.log := rfl
@[simp] theorem State.drawn_stk : (s.drawn).stk = s.stk := rfl
@[simp] theorem State.drawn_seq : (s.drawn).seq = s.seq := rfl
@[simp] theorem State.drawn_sns : (s.drawn).sns = s.sns := rfl
@[simp] theorem State.drawn_fbx : (s.drawn).fbx = s.fbx := rfl
@[simp] theorem State.drawn_phs : (s.drawn).phs = s.phs := rfl
@[simp] theorem State.drawn_dft : (s.drawn).dft = s.dft := rfl
@[simp] theorem State.drawn_emb : (s.drawn).emb = s.emb := rfl
@[simp] theorem State.drawn_thm : (s.drawn).thm = s.thm := rfl
@[simp] theorem State.drawn_bat : (s.drawn).bat = s.bat := rfl
@[simp] theorem State.drawn_nvm : (s.drawn).nvm = s.nvm := rfl
@[simp] theorem State.drawn_otp : (s.drawn).otp = s.otp := rfl
@[simp] theorem State.drawn_twi : (s.drawn).twi = s.twi := rfl
@[simp] theorem State.drawn_host : (s.drawn).host = s.host := rfl
@[simp] theorem State.drawn_spi : (s.drawn).spi = s.spi := rfl
@[simp] theorem State.drawn_link : (s.drawn).link = s.link := rfl
@[simp] theorem State.drawn_pr : (s.drawn).pr = s.pr := rfl
@[simp] theorem State.drawn_feat : (s.drawn).feat = s.feat := rfl

@[simp] theorem State.flagErr_pending (f a : Nat) : (s.flagErr f a).pending = s.pending := rfl
@[simp] theorem State.flagErr_now (f a : Nat) : (s.flagErr f a).now = s.now := rfl
@[simp] theorem State.flagErr_cycle (f a : Nat) : (s.flagErr f a).cycle = s.cycle := rfl
@[simp] theorem State.flagErr_freeCtr (f a : Nat) : (s.flagErr f a).freeCtr = s.freeCtr := rfl
@[simp] theorem State.flagErr_regs (f a : Nat) : (s.flagErr f a).regs = s.regs := rfl
@[simp] theorem State.flagErr_shadow (f a : Nat) : (s.flagErr f a).shadow = s.shadow := rfl
@[simp] theorem State.flagErr_openPairs (f a : Nat) : (s.flagErr f a).openPairs = s.openPairs := rfl
@[simp] theorem State.flagErr_mem (f a : Nat) : (s.flagErr f a).mem = s.mem := rfl
@[simp] theorem State.flagErr_ecc (f a : Nat) : (s.flagErr f a).ecc = s.ecc := rfl
@[simp] theorem State.flagErr_pins (f a : Nat) : (s.flagErr f a).pins = s.pins := rfl
@[simp] theorem State.flagErr_clk (f a : Nat) : (s.flagErr f a).clk = s.clk := rfl
@[simp] theorem State.flagErr_time (f a : Nat) : (s.flagErr f a).time = s.time := rfl
@[simp] theorem State.flagErr_boot (f a : Nat) : (s.flagErr f a).boot = s.boot := rfl
@[simp] theorem State.flagErr_pwr (f a : Nat) : (s.flagErr f a).pwr = s.pwr := rfl
@[simp] theorem State.flagErr_log (f a : Nat) : (s.flagErr f a).log = s.log := rfl
@[simp] theorem State.flagErr_stk (f a : Nat) : (s.flagErr f a).stk = s.stk := rfl
@[simp] theorem State.flagErr_seq (f a : Nat) : (s.flagErr f a).seq = s.seq := rfl
@[simp] theorem State.flagErr_sns (f a : Nat) : (s.flagErr f a).sns = s.sns := rfl
@[simp] theorem State.flagErr_fbx (f a : Nat) : (s.flagErr f a).fbx = s.fbx := rfl
@[simp] theorem State.flagErr_phs (f a : Nat) : (s.flagErr f a).phs = s.phs := rfl
@[simp] theorem State.flagErr_dft (f a : Nat) : (s.flagErr f a).dft = s.dft := rfl
@[simp] theorem State.flagErr_emb (f a : Nat) : (s.flagErr f a).emb = s.emb := rfl
@[simp] theorem State.flagErr_thm (f a : Nat) : (s.flagErr f a).thm = s.thm := rfl
@[simp] theorem State.flagErr_bat (f a : Nat) : (s.flagErr f a).bat = s.bat := rfl
@[simp] theorem State.flagErr_nvm (f a : Nat) : (s.flagErr f a).nvm = s.nvm := rfl
@[simp] theorem State.flagErr_otp (f a : Nat) : (s.flagErr f a).otp = s.otp := rfl
@[simp] theorem State.flagErr_twi (f a : Nat) : (s.flagErr f a).twi = s.twi := rfl
@[simp] theorem State.flagErr_host (f a : Nat) : (s.flagErr f a).host = s.host := rfl
@[simp] theorem State.flagErr_spi (f a : Nat) : (s.flagErr f a).spi = s.spi := rfl
@[simp] theorem State.flagErr_link (f a : Nat) : (s.flagErr f a).link = s.link := rfl
@[simp] theorem State.flagErr_pr (f a : Nat) : (s.flagErr f a).pr = s.pr := rfl
@[simp] theorem State.flagErr_feat (f a : Nat) : (s.flagErr f a).feat = s.feat := rfl

@[simp] theorem State.evp_pending (b : Nat) : (s.evp b).pending = s.pending := rfl
@[simp] theorem State.evp_now (b : Nat) : (s.evp b).now = s.now := rfl
@[simp] theorem State.evp_cycle (b : Nat) : (s.evp b).cycle = s.cycle := rfl
@[simp] theorem State.evp_freeCtr (b : Nat) : (s.evp b).freeCtr = s.freeCtr := rfl
@[simp] theorem State.evp_regs (b : Nat) : (s.evp b).regs = s.regs := rfl
@[simp] theorem State.evp_shadow (b : Nat) : (s.evp b).shadow = s.shadow := rfl
@[simp] theorem State.evp_openPairs (b : Nat) : (s.evp b).openPairs = s.openPairs := rfl
@[simp] theorem State.evp_mem (b : Nat) : (s.evp b).mem = s.mem := rfl
@[simp] theorem State.evp_ecc (b : Nat) : (s.evp b).ecc = s.ecc := rfl
@[simp] theorem State.evp_pins (b : Nat) : (s.evp b).pins = s.pins := rfl
@[simp] theorem State.evp_sys (b : Nat) : (s.evp b).sys = s.sys := rfl
@[simp] theorem State.evp_clk (b : Nat) : (s.evp b).clk = s.clk := rfl
@[simp] theorem State.evp_time (b : Nat) : (s.evp b).time = s.time := rfl
@[simp] theorem State.evp_boot (b : Nat) : (s.evp b).boot = s.boot := rfl
@[simp] theorem State.evp_pwr (b : Nat) : (s.evp b).pwr = s.pwr := rfl
@[simp] theorem State.evp_log (b : Nat) : (s.evp b).log = s.log := rfl
@[simp] theorem State.evp_seq (b : Nat) : (s.evp b).seq = s.seq := rfl
@[simp] theorem State.evp_sns (b : Nat) : (s.evp b).sns = s.sns := rfl
@[simp] theorem State.evp_fbx (b : Nat) : (s.evp b).fbx = s.fbx := rfl
@[simp] theorem State.evp_phs (b : Nat) : (s.evp b).phs = s.phs := rfl
@[simp] theorem State.evp_dft (b : Nat) : (s.evp b).dft = s.dft := rfl
@[simp] theorem State.evp_emb (b : Nat) : (s.evp b).emb = s.emb := rfl
@[simp] theorem State.evp_thm (b : Nat) : (s.evp b).thm = s.thm := rfl
@[simp] theorem State.evp_bat (b : Nat) : (s.evp b).bat = s.bat := rfl
@[simp] theorem State.evp_nvm (b : Nat) : (s.evp b).nvm = s.nvm := rfl
@[simp] theorem State.evp_otp (b : Nat) : (s.evp b).otp = s.otp := rfl
@[simp] theorem State.evp_twi (b : Nat) : (s.evp b).twi = s.twi := rfl
@[simp] theorem State.evp_host (b : Nat) : (s.evp b).host = s.host := rfl
@[simp] theorem State.evp_spi (b : Nat) : (s.evp b).spi = s.spi := rfl
@[simp] theorem State.evp_link (b : Nat) : (s.evp b).link = s.link := rfl
@[simp] theorem State.evp_pr (b : Nat) : (s.evp b).pr = s.pr := rfl
@[simp] theorem State.evp_feat (b : Nat) : (s.evp b).feat = s.feat := rfl

@[simp] theorem State.post_pending (o : Origin) (c v : Nat) (p : List (List Word)) : (s.post o c v p).pending = s.pending := rfl
@[simp] theorem State.post_now (o : Origin) (c v : Nat) (p : List (List Word)) : (s.post o c v p).now = s.now := rfl
@[simp] theorem State.post_cycle (o : Origin) (c v : Nat) (p : List (List Word)) : (s.post o c v p).cycle = s.cycle := rfl
@[simp] theorem State.post_freeCtr (o : Origin) (c v : Nat) (p : List (List Word)) : (s.post o c v p).freeCtr = s.freeCtr := rfl
@[simp] theorem State.post_regs (o : Origin) (c v : Nat) (p : List (List Word)) : (s.post o c v p).regs = s.regs := rfl
@[simp] theorem State.post_shadow (o : Origin) (c v : Nat) (p : List (List Word)) : (s.post o c v p).shadow = s.shadow := rfl
@[simp] theorem State.post_openPairs (o : Origin) (c v : Nat) (p : List (List Word)) : (s.post o c v p).openPairs = s.openPairs := rfl
@[simp] theorem State.post_mem (o : Origin) (c v : Nat) (p : List (List Word)) : (s.post o c v p).mem = s.mem := rfl
@[simp] theorem State.post_ecc (o : Origin) (c v : Nat) (p : List (List Word)) : (s.post o c v p).ecc = s.ecc := rfl
@[simp] theorem State.post_pins (o : Origin) (c v : Nat) (p : List (List Word)) : (s.post o c v p).pins = s.pins := rfl
@[simp] theorem State.post_sys (o : Origin) (c v : Nat) (p : List (List Word)) : (s.post o c v p).sys = s.sys := rfl
@[simp] theorem State.post_clk (o : Origin) (c v : Nat) (p : List (List Word)) : (s.post o c v p).clk = s.clk := rfl
@[simp] theorem State.post_time (o : Origin) (c v : Nat) (p : List (List Word)) : (s.post o c v p).time = s.time := rfl
@[simp] theorem State.post_boot (o : Origin) (c v : Nat) (p : List (List Word)) : (s.post o c v p).boot = s.boot := rfl
@[simp] theorem State.post_pwr (o : Origin) (c v : Nat) (p : List (List Word)) : (s.post o c v p).pwr = s.pwr := rfl
@[simp] theorem State.post_stk (o : Origin) (c v : Nat) (p : List (List Word)) : (s.post o c v p).stk = s.stk := rfl
@[simp] theorem State.post_seq (o : Origin) (c v : Nat) (p : List (List Word)) : (s.post o c v p).seq = s.seq := rfl
@[simp] theorem State.post_sns (o : Origin) (c v : Nat) (p : List (List Word)) : (s.post o c v p).sns = s.sns := rfl
@[simp] theorem State.post_fbx (o : Origin) (c v : Nat) (p : List (List Word)) : (s.post o c v p).fbx = s.fbx := rfl
@[simp] theorem State.post_phs (o : Origin) (c v : Nat) (p : List (List Word)) : (s.post o c v p).phs = s.phs := rfl
@[simp] theorem State.post_dft (o : Origin) (c v : Nat) (p : List (List Word)) : (s.post o c v p).dft = s.dft := rfl
@[simp] theorem State.post_emb (o : Origin) (c v : Nat) (p : List (List Word)) : (s.post o c v p).emb = s.emb := rfl
@[simp] theorem State.post_thm (o : Origin) (c v : Nat) (p : List (List Word)) : (s.post o c v p).thm = s.thm := rfl
@[simp] theorem State.post_bat (o : Origin) (c v : Nat) (p : List (List Word)) : (s.post o c v p).bat = s.bat := rfl
@[simp] theorem State.post_nvm (o : Origin) (c v : Nat) (p : List (List Word)) : (s.post o c v p).nvm = s.nvm := rfl
@[simp] theorem State.post_otp (o : Origin) (c v : Nat) (p : List (List Word)) : (s.post o c v p).otp = s.otp := rfl
@[simp] theorem State.post_twi (o : Origin) (c v : Nat) (p : List (List Word)) : (s.post o c v p).twi = s.twi := rfl
@[simp] theorem State.post_host (o : Origin) (c v : Nat) (p : List (List Word)) : (s.post o c v p).host = s.host := rfl
@[simp] theorem State.post_spi (o : Origin) (c v : Nat) (p : List (List Word)) : (s.post o c v p).spi = s.spi := rfl
@[simp] theorem State.post_link (o : Origin) (c v : Nat) (p : List (List Word)) : (s.post o c v p).link = s.link := rfl
@[simp] theorem State.post_pr (o : Origin) (c v : Nat) (p : List (List Word)) : (s.post o c v p).pr = s.pr := rfl
@[simp] theorem State.post_feat (o : Origin) (c v : Nat) (p : List (List Word)) : (s.post o c v p).feat = s.feat := rfl

@[simp] theorem State.dev_pending (c v : Nat) (p : List Word) : (s.dev c v p).pending = s.pending := rfl
@[simp] theorem State.dev_now (c v : Nat) (p : List Word) : (s.dev c v p).now = s.now := rfl
@[simp] theorem State.dev_cycle (c v : Nat) (p : List Word) : (s.dev c v p).cycle = s.cycle := rfl
@[simp] theorem State.dev_freeCtr (c v : Nat) (p : List Word) : (s.dev c v p).freeCtr = s.freeCtr := rfl
@[simp] theorem State.dev_regs (c v : Nat) (p : List Word) : (s.dev c v p).regs = s.regs := rfl
@[simp] theorem State.dev_shadow (c v : Nat) (p : List Word) : (s.dev c v p).shadow = s.shadow := rfl
@[simp] theorem State.dev_openPairs (c v : Nat) (p : List Word) : (s.dev c v p).openPairs = s.openPairs := rfl
@[simp] theorem State.dev_mem (c v : Nat) (p : List Word) : (s.dev c v p).mem = s.mem := rfl
@[simp] theorem State.dev_ecc (c v : Nat) (p : List Word) : (s.dev c v p).ecc = s.ecc := rfl
@[simp] theorem State.dev_pins (c v : Nat) (p : List Word) : (s.dev c v p).pins = s.pins := rfl
@[simp] theorem State.dev_sys (c v : Nat) (p : List Word) : (s.dev c v p).sys = s.sys := rfl
@[simp] theorem State.dev_clk (c v : Nat) (p : List Word) : (s.dev c v p).clk = s.clk := rfl
@[simp] theorem State.dev_time (c v : Nat) (p : List Word) : (s.dev c v p).time = s.time := rfl
@[simp] theorem State.dev_boot (c v : Nat) (p : List Word) : (s.dev c v p).boot = s.boot := rfl
@[simp] theorem State.dev_pwr (c v : Nat) (p : List Word) : (s.dev c v p).pwr = s.pwr := rfl
@[simp] theorem State.dev_stk (c v : Nat) (p : List Word) : (s.dev c v p).stk = s.stk := rfl
@[simp] theorem State.dev_seq (c v : Nat) (p : List Word) : (s.dev c v p).seq = s.seq := rfl
@[simp] theorem State.dev_sns (c v : Nat) (p : List Word) : (s.dev c v p).sns = s.sns := rfl
@[simp] theorem State.dev_fbx (c v : Nat) (p : List Word) : (s.dev c v p).fbx = s.fbx := rfl
@[simp] theorem State.dev_phs (c v : Nat) (p : List Word) : (s.dev c v p).phs = s.phs := rfl
@[simp] theorem State.dev_dft (c v : Nat) (p : List Word) : (s.dev c v p).dft = s.dft := rfl
@[simp] theorem State.dev_emb (c v : Nat) (p : List Word) : (s.dev c v p).emb = s.emb := rfl
@[simp] theorem State.dev_thm (c v : Nat) (p : List Word) : (s.dev c v p).thm = s.thm := rfl
@[simp] theorem State.dev_bat (c v : Nat) (p : List Word) : (s.dev c v p).bat = s.bat := rfl
@[simp] theorem State.dev_nvm (c v : Nat) (p : List Word) : (s.dev c v p).nvm = s.nvm := rfl
@[simp] theorem State.dev_otp (c v : Nat) (p : List Word) : (s.dev c v p).otp = s.otp := rfl
@[simp] theorem State.dev_twi (c v : Nat) (p : List Word) : (s.dev c v p).twi = s.twi := rfl
@[simp] theorem State.dev_host (c v : Nat) (p : List Word) : (s.dev c v p).host = s.host := rfl
@[simp] theorem State.dev_spi (c v : Nat) (p : List Word) : (s.dev c v p).spi = s.spi := rfl
@[simp] theorem State.dev_link (c v : Nat) (p : List Word) : (s.dev c v p).link = s.link := rfl
@[simp] theorem State.dev_pr (c v : Nat) (p : List Word) : (s.dev c v p).pr = s.pr := rfl
@[simp] theorem State.dev_feat (c v : Nat) (p : List Word) : (s.dev c v p).feat = s.feat := rfl

@[simp] theorem State.setWord_pending (a : Nat) (v : Word) : (s.setWord a v).pending = s.pending := rfl
@[simp] theorem State.setWord_now (a : Nat) (v : Word) : (s.setWord a v).now = s.now := rfl
@[simp] theorem State.setWord_cycle (a : Nat) (v : Word) : (s.setWord a v).cycle = s.cycle := rfl
@[simp] theorem State.setWord_freeCtr (a : Nat) (v : Word) : (s.setWord a v).freeCtr = s.freeCtr := rfl
@[simp] theorem State.setWord_regs (a : Nat) (v : Word) : (s.setWord a v).regs = s.regs := rfl
@[simp] theorem State.setWord_shadow (a : Nat) (v : Word) : (s.setWord a v).shadow = s.shadow := rfl
@[simp] theorem State.setWord_openPairs (a : Nat) (v : Word) : (s.setWord a v).openPairs = s.openPairs := rfl
@[simp] theorem State.setWord_ecc (a : Nat) (v : Word) : (s.setWord a v).ecc = s.ecc := rfl
@[simp] theorem State.setWord_pins (a : Nat) (v : Word) : (s.setWord a v).pins = s.pins := rfl
@[simp] theorem State.setWord_sys (a : Nat) (v : Word) : (s.setWord a v).sys = s.sys := rfl
@[simp] theorem State.setWord_clk (a : Nat) (v : Word) : (s.setWord a v).clk = s.clk := rfl
@[simp] theorem State.setWord_time (a : Nat) (v : Word) : (s.setWord a v).time = s.time := rfl
@[simp] theorem State.setWord_boot (a : Nat) (v : Word) : (s.setWord a v).boot = s.boot := rfl
@[simp] theorem State.setWord_pwr (a : Nat) (v : Word) : (s.setWord a v).pwr = s.pwr := rfl
@[simp] theorem State.setWord_log (a : Nat) (v : Word) : (s.setWord a v).log = s.log := rfl
@[simp] theorem State.setWord_stk (a : Nat) (v : Word) : (s.setWord a v).stk = s.stk := rfl
@[simp] theorem State.setWord_seq (a : Nat) (v : Word) : (s.setWord a v).seq = s.seq := rfl
@[simp] theorem State.setWord_sns (a : Nat) (v : Word) : (s.setWord a v).sns = s.sns := rfl
@[simp] theorem State.setWord_fbx (a : Nat) (v : Word) : (s.setWord a v).fbx = s.fbx := rfl
@[simp] theorem State.setWord_phs (a : Nat) (v : Word) : (s.setWord a v).phs = s.phs := rfl
@[simp] theorem State.setWord_dft (a : Nat) (v : Word) : (s.setWord a v).dft = s.dft := rfl
@[simp] theorem State.setWord_emb (a : Nat) (v : Word) : (s.setWord a v).emb = s.emb := rfl
@[simp] theorem State.setWord_thm (a : Nat) (v : Word) : (s.setWord a v).thm = s.thm := rfl
@[simp] theorem State.setWord_bat (a : Nat) (v : Word) : (s.setWord a v).bat = s.bat := rfl
@[simp] theorem State.setWord_nvm (a : Nat) (v : Word) : (s.setWord a v).nvm = s.nvm := rfl
@[simp] theorem State.setWord_otp (a : Nat) (v : Word) : (s.setWord a v).otp = s.otp := rfl
@[simp] theorem State.setWord_twi (a : Nat) (v : Word) : (s.setWord a v).twi = s.twi := rfl
@[simp] theorem State.setWord_host (a : Nat) (v : Word) : (s.setWord a v).host = s.host := rfl
@[simp] theorem State.setWord_spi (a : Nat) (v : Word) : (s.setWord a v).spi = s.spi := rfl
@[simp] theorem State.setWord_link (a : Nat) (v : Word) : (s.setWord a v).link = s.link := rfl
@[simp] theorem State.setWord_pr (a : Nat) (v : Word) : (s.setWord a v).pr = s.pr := rfl
@[simp] theorem State.setWord_feat (a : Nat) (v : Word) : (s.setWord a v).feat = s.feat := rfl

@[simp] theorem State.setBytes_pending (a : Nat) (v : List Byte) : (s.setBytes a v).pending = s.pending := rfl
@[simp] theorem State.setBytes_now (a : Nat) (v : List Byte) : (s.setBytes a v).now = s.now := rfl
@[simp] theorem State.setBytes_cycle (a : Nat) (v : List Byte) : (s.setBytes a v).cycle = s.cycle := rfl
@[simp] theorem State.setBytes_freeCtr (a : Nat) (v : List Byte) : (s.setBytes a v).freeCtr = s.freeCtr := rfl
@[simp] theorem State.setBytes_regs (a : Nat) (v : List Byte) : (s.setBytes a v).regs = s.regs := rfl
@[simp] theorem State.setBytes_shadow (a : Nat) (v : List Byte) : (s.setBytes a v).shadow = s.shadow := rfl
@[simp] theorem State.setBytes_openPairs (a : Nat) (v : List Byte) : (s.setBytes a v).openPairs = s.openPairs := rfl
@[simp] theorem State.setBytes_ecc (a : Nat) (v : List Byte) : (s.setBytes a v).ecc = s.ecc := rfl
@[simp] theorem State.setBytes_pins (a : Nat) (v : List Byte) : (s.setBytes a v).pins = s.pins := rfl
@[simp] theorem State.setBytes_sys (a : Nat) (v : List Byte) : (s.setBytes a v).sys = s.sys := rfl
@[simp] theorem State.setBytes_clk (a : Nat) (v : List Byte) : (s.setBytes a v).clk = s.clk := rfl
@[simp] theorem State.setBytes_time (a : Nat) (v : List Byte) : (s.setBytes a v).time = s.time := rfl
@[simp] theorem State.setBytes_boot (a : Nat) (v : List Byte) : (s.setBytes a v).boot = s.boot := rfl
@[simp] theorem State.setBytes_pwr (a : Nat) (v : List Byte) : (s.setBytes a v).pwr = s.pwr := rfl
@[simp] theorem State.setBytes_log (a : Nat) (v : List Byte) : (s.setBytes a v).log = s.log := rfl
@[simp] theorem State.setBytes_stk (a : Nat) (v : List Byte) : (s.setBytes a v).stk = s.stk := rfl
@[simp] theorem State.setBytes_seq (a : Nat) (v : List Byte) : (s.setBytes a v).seq = s.seq := rfl
@[simp] theorem State.setBytes_sns (a : Nat) (v : List Byte) : (s.setBytes a v).sns = s.sns := rfl
@[simp] theorem State.setBytes_fbx (a : Nat) (v : List Byte) : (s.setBytes a v).fbx = s.fbx := rfl
@[simp] theorem State.setBytes_phs (a : Nat) (v : List Byte) : (s.setBytes a v).phs = s.phs := rfl
@[simp] theorem State.setBytes_dft (a : Nat) (v : List Byte) : (s.setBytes a v).dft = s.dft := rfl
@[simp] theorem State.setBytes_emb (a : Nat) (v : List Byte) : (s.setBytes a v).emb = s.emb := rfl
@[simp] theorem State.setBytes_thm (a : Nat) (v : List Byte) : (s.setBytes a v).thm = s.thm := rfl
@[simp] theorem State.setBytes_bat (a : Nat) (v : List Byte) : (s.setBytes a v).bat = s.bat := rfl
@[simp] theorem State.setBytes_nvm (a : Nat) (v : List Byte) : (s.setBytes a v).nvm = s.nvm := rfl
@[simp] theorem State.setBytes_otp (a : Nat) (v : List Byte) : (s.setBytes a v).otp = s.otp := rfl
@[simp] theorem State.setBytes_twi (a : Nat) (v : List Byte) : (s.setBytes a v).twi = s.twi := rfl
@[simp] theorem State.setBytes_host (a : Nat) (v : List Byte) : (s.setBytes a v).host = s.host := rfl
@[simp] theorem State.setBytes_spi (a : Nat) (v : List Byte) : (s.setBytes a v).spi = s.spi := rfl
@[simp] theorem State.setBytes_link (a : Nat) (v : List Byte) : (s.setBytes a v).link = s.link := rfl
@[simp] theorem State.setBytes_pr (a : Nat) (v : List Byte) : (s.setBytes a v).pr = s.pr := rfl
@[simp] theorem State.setBytes_feat (a : Nat) (v : List Byte) : (s.setBytes a v).feat = s.feat := rfl

@[simp] theorem State.setReg_pending (a : Nat) (v : Word) : (s.setReg a v).pending = s.pending := rfl
@[simp] theorem State.setReg_now (a : Nat) (v : Word) : (s.setReg a v).now = s.now := rfl
@[simp] theorem State.setReg_cycle (a : Nat) (v : Word) : (s.setReg a v).cycle = s.cycle := rfl
@[simp] theorem State.setReg_freeCtr (a : Nat) (v : Word) : (s.setReg a v).freeCtr = s.freeCtr := rfl
@[simp] theorem State.setReg_shadow (a : Nat) (v : Word) : (s.setReg a v).shadow = s.shadow := rfl
@[simp] theorem State.setReg_openPairs (a : Nat) (v : Word) : (s.setReg a v).openPairs = s.openPairs := rfl
@[simp] theorem State.setReg_mem (a : Nat) (v : Word) : (s.setReg a v).mem = s.mem := rfl
@[simp] theorem State.setReg_ecc (a : Nat) (v : Word) : (s.setReg a v).ecc = s.ecc := rfl
@[simp] theorem State.setReg_pins (a : Nat) (v : Word) : (s.setReg a v).pins = s.pins := rfl
@[simp] theorem State.setReg_sys (a : Nat) (v : Word) : (s.setReg a v).sys = s.sys := rfl
@[simp] theorem State.setReg_clk (a : Nat) (v : Word) : (s.setReg a v).clk = s.clk := rfl
@[simp] theorem State.setReg_time (a : Nat) (v : Word) : (s.setReg a v).time = s.time := rfl
@[simp] theorem State.setReg_boot (a : Nat) (v : Word) : (s.setReg a v).boot = s.boot := rfl
@[simp] theorem State.setReg_pwr (a : Nat) (v : Word) : (s.setReg a v).pwr = s.pwr := rfl
@[simp] theorem State.setReg_log (a : Nat) (v : Word) : (s.setReg a v).log = s.log := rfl
@[simp] theorem State.setReg_stk (a : Nat) (v : Word) : (s.setReg a v).stk = s.stk := rfl
@[simp] theorem State.setReg_seq (a : Nat) (v : Word) : (s.setReg a v).seq = s.seq := rfl
@[simp] theorem State.setReg_sns (a : Nat) (v : Word) : (s.setReg a v).sns = s.sns := rfl
@[simp] theorem State.setReg_fbx (a : Nat) (v : Word) : (s.setReg a v).fbx = s.fbx := rfl
@[simp] theorem State.setReg_phs (a : Nat) (v : Word) : (s.setReg a v).phs = s.phs := rfl
@[simp] theorem State.setReg_dft (a : Nat) (v : Word) : (s.setReg a v).dft = s.dft := rfl
@[simp] theorem State.setReg_emb (a : Nat) (v : Word) : (s.setReg a v).emb = s.emb := rfl
@[simp] theorem State.setReg_thm (a : Nat) (v : Word) : (s.setReg a v).thm = s.thm := rfl
@[simp] theorem State.setReg_bat (a : Nat) (v : Word) : (s.setReg a v).bat = s.bat := rfl
@[simp] theorem State.setReg_nvm (a : Nat) (v : Word) : (s.setReg a v).nvm = s.nvm := rfl
@[simp] theorem State.setReg_otp (a : Nat) (v : Word) : (s.setReg a v).otp = s.otp := rfl
@[simp] theorem State.setReg_twi (a : Nat) (v : Word) : (s.setReg a v).twi = s.twi := rfl
@[simp] theorem State.setReg_host (a : Nat) (v : Word) : (s.setReg a v).host = s.host := rfl
@[simp] theorem State.setReg_spi (a : Nat) (v : Word) : (s.setReg a v).spi = s.spi := rfl
@[simp] theorem State.setReg_link (a : Nat) (v : Word) : (s.setReg a v).link = s.link := rfl
@[simp] theorem State.setReg_pr (a : Nat) (v : Word) : (s.setReg a v).pr = s.pr := rfl
@[simp] theorem State.setReg_feat (a : Nat) (v : Word) : (s.setReg a v).feat = s.feat := rfl

@[simp] theorem State.pushShadow_pending (i : Initiator) (a : Nat) (v : Word) : (s.pushShadow i a v).pending = s.pending := rfl
@[simp] theorem State.pushShadow_now (i : Initiator) (a : Nat) (v : Word) : (s.pushShadow i a v).now = s.now := rfl
@[simp] theorem State.pushShadow_cycle (i : Initiator) (a : Nat) (v : Word) : (s.pushShadow i a v).cycle = s.cycle := rfl
@[simp] theorem State.pushShadow_freeCtr (i : Initiator) (a : Nat) (v : Word) : (s.pushShadow i a v).freeCtr = s.freeCtr := rfl
@[simp] theorem State.pushShadow_regs (i : Initiator) (a : Nat) (v : Word) : (s.pushShadow i a v).regs = s.regs := rfl
@[simp] theorem State.pushShadow_openPairs (i : Initiator) (a : Nat) (v : Word) : (s.pushShadow i a v).openPairs = s.openPairs := rfl
@[simp] theorem State.pushShadow_mem (i : Initiator) (a : Nat) (v : Word) : (s.pushShadow i a v).mem = s.mem := rfl
@[simp] theorem State.pushShadow_ecc (i : Initiator) (a : Nat) (v : Word) : (s.pushShadow i a v).ecc = s.ecc := rfl
@[simp] theorem State.pushShadow_pins (i : Initiator) (a : Nat) (v : Word) : (s.pushShadow i a v).pins = s.pins := rfl
@[simp] theorem State.pushShadow_sys (i : Initiator) (a : Nat) (v : Word) : (s.pushShadow i a v).sys = s.sys := rfl
@[simp] theorem State.pushShadow_clk (i : Initiator) (a : Nat) (v : Word) : (s.pushShadow i a v).clk = s.clk := rfl
@[simp] theorem State.pushShadow_time (i : Initiator) (a : Nat) (v : Word) : (s.pushShadow i a v).time = s.time := rfl
@[simp] theorem State.pushShadow_boot (i : Initiator) (a : Nat) (v : Word) : (s.pushShadow i a v).boot = s.boot := rfl
@[simp] theorem State.pushShadow_pwr (i : Initiator) (a : Nat) (v : Word) : (s.pushShadow i a v).pwr = s.pwr := rfl
@[simp] theorem State.pushShadow_log (i : Initiator) (a : Nat) (v : Word) : (s.pushShadow i a v).log = s.log := rfl
@[simp] theorem State.pushShadow_stk (i : Initiator) (a : Nat) (v : Word) : (s.pushShadow i a v).stk = s.stk := rfl
@[simp] theorem State.pushShadow_seq (i : Initiator) (a : Nat) (v : Word) : (s.pushShadow i a v).seq = s.seq := rfl
@[simp] theorem State.pushShadow_sns (i : Initiator) (a : Nat) (v : Word) : (s.pushShadow i a v).sns = s.sns := rfl
@[simp] theorem State.pushShadow_fbx (i : Initiator) (a : Nat) (v : Word) : (s.pushShadow i a v).fbx = s.fbx := rfl
@[simp] theorem State.pushShadow_phs (i : Initiator) (a : Nat) (v : Word) : (s.pushShadow i a v).phs = s.phs := rfl
@[simp] theorem State.pushShadow_dft (i : Initiator) (a : Nat) (v : Word) : (s.pushShadow i a v).dft = s.dft := rfl
@[simp] theorem State.pushShadow_emb (i : Initiator) (a : Nat) (v : Word) : (s.pushShadow i a v).emb = s.emb := rfl
@[simp] theorem State.pushShadow_thm (i : Initiator) (a : Nat) (v : Word) : (s.pushShadow i a v).thm = s.thm := rfl
@[simp] theorem State.pushShadow_bat (i : Initiator) (a : Nat) (v : Word) : (s.pushShadow i a v).bat = s.bat := rfl
@[simp] theorem State.pushShadow_nvm (i : Initiator) (a : Nat) (v : Word) : (s.pushShadow i a v).nvm = s.nvm := rfl
@[simp] theorem State.pushShadow_otp (i : Initiator) (a : Nat) (v : Word) : (s.pushShadow i a v).otp = s.otp := rfl
@[simp] theorem State.pushShadow_twi (i : Initiator) (a : Nat) (v : Word) : (s.pushShadow i a v).twi = s.twi := rfl
@[simp] theorem State.pushShadow_host (i : Initiator) (a : Nat) (v : Word) : (s.pushShadow i a v).host = s.host := rfl
@[simp] theorem State.pushShadow_spi (i : Initiator) (a : Nat) (v : Word) : (s.pushShadow i a v).spi = s.spi := rfl
@[simp] theorem State.pushShadow_link (i : Initiator) (a : Nat) (v : Word) : (s.pushShadow i a v).link = s.link := rfl
@[simp] theorem State.pushShadow_pr (i : Initiator) (a : Nat) (v : Word) : (s.pushShadow i a v).pr = s.pr := rfl
@[simp] theorem State.pushShadow_feat (i : Initiator) (a : Nat) (v : Word) : (s.pushShadow i a v).feat = s.feat := rfl

@[simp] theorem State.modPr_pending (f : PairSt → PairSt) : (s.modPr f).pending = s.pending := rfl
@[simp] theorem State.modPr_now (f : PairSt → PairSt) : (s.modPr f).now = s.now := rfl
@[simp] theorem State.modPr_cycle (f : PairSt → PairSt) : (s.modPr f).cycle = s.cycle := rfl
@[simp] theorem State.modPr_freeCtr (f : PairSt → PairSt) : (s.modPr f).freeCtr = s.freeCtr := rfl
@[simp] theorem State.modPr_regs (f : PairSt → PairSt) : (s.modPr f).regs = s.regs := rfl
@[simp] theorem State.modPr_shadow (f : PairSt → PairSt) : (s.modPr f).shadow = s.shadow := rfl
@[simp] theorem State.modPr_openPairs (f : PairSt → PairSt) : (s.modPr f).openPairs = s.openPairs := rfl
@[simp] theorem State.modPr_mem (f : PairSt → PairSt) : (s.modPr f).mem = s.mem := rfl
@[simp] theorem State.modPr_ecc (f : PairSt → PairSt) : (s.modPr f).ecc = s.ecc := rfl
@[simp] theorem State.modPr_pins (f : PairSt → PairSt) : (s.modPr f).pins = s.pins := rfl
@[simp] theorem State.modPr_sys (f : PairSt → PairSt) : (s.modPr f).sys = s.sys := rfl
@[simp] theorem State.modPr_clk (f : PairSt → PairSt) : (s.modPr f).clk = s.clk := rfl
@[simp] theorem State.modPr_time (f : PairSt → PairSt) : (s.modPr f).time = s.time := rfl
@[simp] theorem State.modPr_boot (f : PairSt → PairSt) : (s.modPr f).boot = s.boot := rfl
@[simp] theorem State.modPr_pwr (f : PairSt → PairSt) : (s.modPr f).pwr = s.pwr := rfl
@[simp] theorem State.modPr_log (f : PairSt → PairSt) : (s.modPr f).log = s.log := rfl
@[simp] theorem State.modPr_stk (f : PairSt → PairSt) : (s.modPr f).stk = s.stk := rfl
@[simp] theorem State.modPr_seq (f : PairSt → PairSt) : (s.modPr f).seq = s.seq := rfl
@[simp] theorem State.modPr_sns (f : PairSt → PairSt) : (s.modPr f).sns = s.sns := rfl
@[simp] theorem State.modPr_fbx (f : PairSt → PairSt) : (s.modPr f).fbx = s.fbx := rfl
@[simp] theorem State.modPr_phs (f : PairSt → PairSt) : (s.modPr f).phs = s.phs := rfl
@[simp] theorem State.modPr_dft (f : PairSt → PairSt) : (s.modPr f).dft = s.dft := rfl
@[simp] theorem State.modPr_emb (f : PairSt → PairSt) : (s.modPr f).emb = s.emb := rfl
@[simp] theorem State.modPr_thm (f : PairSt → PairSt) : (s.modPr f).thm = s.thm := rfl
@[simp] theorem State.modPr_bat (f : PairSt → PairSt) : (s.modPr f).bat = s.bat := rfl
@[simp] theorem State.modPr_nvm (f : PairSt → PairSt) : (s.modPr f).nvm = s.nvm := rfl
@[simp] theorem State.modPr_otp (f : PairSt → PairSt) : (s.modPr f).otp = s.otp := rfl
@[simp] theorem State.modPr_twi (f : PairSt → PairSt) : (s.modPr f).twi = s.twi := rfl
@[simp] theorem State.modPr_host (f : PairSt → PairSt) : (s.modPr f).host = s.host := rfl
@[simp] theorem State.modPr_spi (f : PairSt → PairSt) : (s.modPr f).spi = s.spi := rfl
@[simp] theorem State.modPr_link (f : PairSt → PairSt) : (s.modPr f).link = s.link := rfl
@[simp] theorem State.modPr_feat (f : PairSt → PairSt) : (s.modPr f).feat = s.feat := rfl

@[simp] theorem State.modTime_pending (f : TimeSt → TimeSt) : (s.modTime f).pending = s.pending := rfl
@[simp] theorem State.modTime_now (f : TimeSt → TimeSt) : (s.modTime f).now = s.now := rfl
@[simp] theorem State.modTime_cycle (f : TimeSt → TimeSt) : (s.modTime f).cycle = s.cycle := rfl
@[simp] theorem State.modTime_freeCtr (f : TimeSt → TimeSt) : (s.modTime f).freeCtr = s.freeCtr := rfl
@[simp] theorem State.modTime_regs (f : TimeSt → TimeSt) : (s.modTime f).regs = s.regs := rfl
@[simp] theorem State.modTime_shadow (f : TimeSt → TimeSt) : (s.modTime f).shadow = s.shadow := rfl
@[simp] theorem State.modTime_openPairs (f : TimeSt → TimeSt) : (s.modTime f).openPairs = s.openPairs := rfl
@[simp] theorem State.modTime_mem (f : TimeSt → TimeSt) : (s.modTime f).mem = s.mem := rfl
@[simp] theorem State.modTime_ecc (f : TimeSt → TimeSt) : (s.modTime f).ecc = s.ecc := rfl
@[simp] theorem State.modTime_pins (f : TimeSt → TimeSt) : (s.modTime f).pins = s.pins := rfl
@[simp] theorem State.modTime_sys (f : TimeSt → TimeSt) : (s.modTime f).sys = s.sys := rfl
@[simp] theorem State.modTime_clk (f : TimeSt → TimeSt) : (s.modTime f).clk = s.clk := rfl
@[simp] theorem State.modTime_boot (f : TimeSt → TimeSt) : (s.modTime f).boot = s.boot := rfl
@[simp] theorem State.modTime_pwr (f : TimeSt → TimeSt) : (s.modTime f).pwr = s.pwr := rfl
@[simp] theorem State.modTime_log (f : TimeSt → TimeSt) : (s.modTime f).log = s.log := rfl
@[simp] theorem State.modTime_stk (f : TimeSt → TimeSt) : (s.modTime f).stk = s.stk := rfl
@[simp] theorem State.modTime_seq (f : TimeSt → TimeSt) : (s.modTime f).seq = s.seq := rfl
@[simp] theorem State.modTime_sns (f : TimeSt → TimeSt) : (s.modTime f).sns = s.sns := rfl
@[simp] theorem State.modTime_fbx (f : TimeSt → TimeSt) : (s.modTime f).fbx = s.fbx := rfl
@[simp] theorem State.modTime_phs (f : TimeSt → TimeSt) : (s.modTime f).phs = s.phs := rfl
@[simp] theorem State.modTime_dft (f : TimeSt → TimeSt) : (s.modTime f).dft = s.dft := rfl
@[simp] theorem State.modTime_emb (f : TimeSt → TimeSt) : (s.modTime f).emb = s.emb := rfl
@[simp] theorem State.modTime_thm (f : TimeSt → TimeSt) : (s.modTime f).thm = s.thm := rfl
@[simp] theorem State.modTime_bat (f : TimeSt → TimeSt) : (s.modTime f).bat = s.bat := rfl
@[simp] theorem State.modTime_nvm (f : TimeSt → TimeSt) : (s.modTime f).nvm = s.nvm := rfl
@[simp] theorem State.modTime_otp (f : TimeSt → TimeSt) : (s.modTime f).otp = s.otp := rfl
@[simp] theorem State.modTime_twi (f : TimeSt → TimeSt) : (s.modTime f).twi = s.twi := rfl
@[simp] theorem State.modTime_host (f : TimeSt → TimeSt) : (s.modTime f).host = s.host := rfl
@[simp] theorem State.modTime_spi (f : TimeSt → TimeSt) : (s.modTime f).spi = s.spi := rfl
@[simp] theorem State.modTime_link (f : TimeSt → TimeSt) : (s.modTime f).link = s.link := rfl
@[simp] theorem State.modTime_pr (f : TimeSt → TimeSt) : (s.modTime f).pr = s.pr := rfl
@[simp] theorem State.modTime_feat (f : TimeSt → TimeSt) : (s.modTime f).feat = s.feat := rfl

@[simp] theorem State.setClk_pending (f : ClkSt → ClkSt) : (s.setClk f).pending = s.pending := rfl
@[simp] theorem State.setClk_now (f : ClkSt → ClkSt) : (s.setClk f).now = s.now := rfl
@[simp] theorem State.setClk_cycle (f : ClkSt → ClkSt) : (s.setClk f).cycle = s.cycle := rfl
@[simp] theorem State.setClk_freeCtr (f : ClkSt → ClkSt) : (s.setClk f).freeCtr = s.freeCtr := rfl
@[simp] theorem State.setClk_regs (f : ClkSt → ClkSt) : (s.setClk f).regs = s.regs := rfl
@[simp] theorem State.setClk_shadow (f : ClkSt → ClkSt) : (s.setClk f).shadow = s.shadow := rfl
@[simp] theorem State.setClk_openPairs (f : ClkSt → ClkSt) : (s.setClk f).openPairs = s.openPairs := rfl
@[simp] theorem State.setClk_mem (f : ClkSt → ClkSt) : (s.setClk f).mem = s.mem := rfl
@[simp] theorem State.setClk_ecc (f : ClkSt → ClkSt) : (s.setClk f).ecc = s.ecc := rfl
@[simp] theorem State.setClk_pins (f : ClkSt → ClkSt) : (s.setClk f).pins = s.pins := rfl
@[simp] theorem State.setClk_sys (f : ClkSt → ClkSt) : (s.setClk f).sys = s.sys := rfl
@[simp] theorem State.setClk_time (f : ClkSt → ClkSt) : (s.setClk f).time = s.time := rfl
@[simp] theorem State.setClk_boot (f : ClkSt → ClkSt) : (s.setClk f).boot = s.boot := rfl
@[simp] theorem State.setClk_pwr (f : ClkSt → ClkSt) : (s.setClk f).pwr = s.pwr := rfl
@[simp] theorem State.setClk_log (f : ClkSt → ClkSt) : (s.setClk f).log = s.log := rfl
@[simp] theorem State.setClk_stk (f : ClkSt → ClkSt) : (s.setClk f).stk = s.stk := rfl
@[simp] theorem State.setClk_seq (f : ClkSt → ClkSt) : (s.setClk f).seq = s.seq := rfl
@[simp] theorem State.setClk_sns (f : ClkSt → ClkSt) : (s.setClk f).sns = s.sns := rfl
@[simp] theorem State.setClk_fbx (f : ClkSt → ClkSt) : (s.setClk f).fbx = s.fbx := rfl
@[simp] theorem State.setClk_phs (f : ClkSt → ClkSt) : (s.setClk f).phs = s.phs := rfl
@[simp] theorem State.setClk_dft (f : ClkSt → ClkSt) : (s.setClk f).dft = s.dft := rfl
@[simp] theorem State.setClk_emb (f : ClkSt → ClkSt) : (s.setClk f).emb = s.emb := rfl
@[simp] theorem State.setClk_thm (f : ClkSt → ClkSt) : (s.setClk f).thm = s.thm := rfl
@[simp] theorem State.setClk_bat (f : ClkSt → ClkSt) : (s.setClk f).bat = s.bat := rfl
@[simp] theorem State.setClk_nvm (f : ClkSt → ClkSt) : (s.setClk f).nvm = s.nvm := rfl
@[simp] theorem State.setClk_otp (f : ClkSt → ClkSt) : (s.setClk f).otp = s.otp := rfl
@[simp] theorem State.setClk_twi (f : ClkSt → ClkSt) : (s.setClk f).twi = s.twi := rfl
@[simp] theorem State.setClk_host (f : ClkSt → ClkSt) : (s.setClk f).host = s.host := rfl
@[simp] theorem State.setClk_spi (f : ClkSt → ClkSt) : (s.setClk f).spi = s.spi := rfl
@[simp] theorem State.setClk_link (f : ClkSt → ClkSt) : (s.setClk f).link = s.link := rfl
@[simp] theorem State.setClk_pr (f : ClkSt → ClkSt) : (s.setClk f).pr = s.pr := rfl
@[simp] theorem State.setClk_feat (f : ClkSt → ClkSt) : (s.setClk f).feat = s.feat := rfl

@[simp] theorem State.modPort_pending (p : Fin 4) (f : StkPortSt → StkPortSt) : (s.modPort p f).pending = s.pending := rfl
@[simp] theorem State.modPort_now (p : Fin 4) (f : StkPortSt → StkPortSt) : (s.modPort p f).now = s.now := rfl
@[simp] theorem State.modPort_cycle (p : Fin 4) (f : StkPortSt → StkPortSt) : (s.modPort p f).cycle = s.cycle := rfl
@[simp] theorem State.modPort_freeCtr (p : Fin 4) (f : StkPortSt → StkPortSt) : (s.modPort p f).freeCtr = s.freeCtr := rfl
@[simp] theorem State.modPort_regs (p : Fin 4) (f : StkPortSt → StkPortSt) : (s.modPort p f).regs = s.regs := rfl
@[simp] theorem State.modPort_shadow (p : Fin 4) (f : StkPortSt → StkPortSt) : (s.modPort p f).shadow = s.shadow := rfl
@[simp] theorem State.modPort_openPairs (p : Fin 4) (f : StkPortSt → StkPortSt) : (s.modPort p f).openPairs = s.openPairs := rfl
@[simp] theorem State.modPort_mem (p : Fin 4) (f : StkPortSt → StkPortSt) : (s.modPort p f).mem = s.mem := rfl
@[simp] theorem State.modPort_ecc (p : Fin 4) (f : StkPortSt → StkPortSt) : (s.modPort p f).ecc = s.ecc := rfl
@[simp] theorem State.modPort_pins (p : Fin 4) (f : StkPortSt → StkPortSt) : (s.modPort p f).pins = s.pins := rfl
@[simp] theorem State.modPort_sys (p : Fin 4) (f : StkPortSt → StkPortSt) : (s.modPort p f).sys = s.sys := rfl
@[simp] theorem State.modPort_clk (p : Fin 4) (f : StkPortSt → StkPortSt) : (s.modPort p f).clk = s.clk := rfl
@[simp] theorem State.modPort_time (p : Fin 4) (f : StkPortSt → StkPortSt) : (s.modPort p f).time = s.time := rfl
@[simp] theorem State.modPort_boot (p : Fin 4) (f : StkPortSt → StkPortSt) : (s.modPort p f).boot = s.boot := rfl
@[simp] theorem State.modPort_pwr (p : Fin 4) (f : StkPortSt → StkPortSt) : (s.modPort p f).pwr = s.pwr := rfl
@[simp] theorem State.modPort_log (p : Fin 4) (f : StkPortSt → StkPortSt) : (s.modPort p f).log = s.log := rfl
@[simp] theorem State.modPort_stk (p : Fin 4) (f : StkPortSt → StkPortSt) : (s.modPort p f).stk = s.stk := rfl
@[simp] theorem State.modPort_seq (p : Fin 4) (f : StkPortSt → StkPortSt) : (s.modPort p f).seq = s.seq := rfl
@[simp] theorem State.modPort_sns (p : Fin 4) (f : StkPortSt → StkPortSt) : (s.modPort p f).sns = s.sns := rfl
@[simp] theorem State.modPort_fbx (p : Fin 4) (f : StkPortSt → StkPortSt) : (s.modPort p f).fbx = s.fbx := rfl
@[simp] theorem State.modPort_phs (p : Fin 4) (f : StkPortSt → StkPortSt) : (s.modPort p f).phs = s.phs := rfl
@[simp] theorem State.modPort_dft (p : Fin 4) (f : StkPortSt → StkPortSt) : (s.modPort p f).dft = s.dft := rfl
@[simp] theorem State.modPort_emb (p : Fin 4) (f : StkPortSt → StkPortSt) : (s.modPort p f).emb = s.emb := rfl
@[simp] theorem State.modPort_thm (p : Fin 4) (f : StkPortSt → StkPortSt) : (s.modPort p f).thm = s.thm := rfl
@[simp] theorem State.modPort_bat (p : Fin 4) (f : StkPortSt → StkPortSt) : (s.modPort p f).bat = s.bat := rfl
@[simp] theorem State.modPort_nvm (p : Fin 4) (f : StkPortSt → StkPortSt) : (s.modPort p f).nvm = s.nvm := rfl
@[simp] theorem State.modPort_otp (p : Fin 4) (f : StkPortSt → StkPortSt) : (s.modPort p f).otp = s.otp := rfl
@[simp] theorem State.modPort_twi (p : Fin 4) (f : StkPortSt → StkPortSt) : (s.modPort p f).twi = s.twi := rfl
@[simp] theorem State.modPort_host (p : Fin 4) (f : StkPortSt → StkPortSt) : (s.modPort p f).host = s.host := rfl
@[simp] theorem State.modPort_spi (p : Fin 4) (f : StkPortSt → StkPortSt) : (s.modPort p f).spi = s.spi := rfl
@[simp] theorem State.modPort_pr (p : Fin 4) (f : StkPortSt → StkPortSt) : (s.modPort p f).pr = s.pr := rfl
@[simp] theorem State.modPort_feat (p : Fin 4) (f : StkPortSt → StkPortSt) : (s.modPort p f).feat = s.feat := rfl

@[simp] theorem State.modHold_pending (h : Fin 256) (f : HolderSt → HolderSt) : (s.modHold h f).pending = s.pending := rfl
@[simp] theorem State.modHold_now (h : Fin 256) (f : HolderSt → HolderSt) : (s.modHold h f).now = s.now := rfl
@[simp] theorem State.modHold_cycle (h : Fin 256) (f : HolderSt → HolderSt) : (s.modHold h f).cycle = s.cycle := rfl
@[simp] theorem State.modHold_freeCtr (h : Fin 256) (f : HolderSt → HolderSt) : (s.modHold h f).freeCtr = s.freeCtr := rfl
@[simp] theorem State.modHold_regs (h : Fin 256) (f : HolderSt → HolderSt) : (s.modHold h f).regs = s.regs := rfl
@[simp] theorem State.modHold_shadow (h : Fin 256) (f : HolderSt → HolderSt) : (s.modHold h f).shadow = s.shadow := rfl
@[simp] theorem State.modHold_openPairs (h : Fin 256) (f : HolderSt → HolderSt) : (s.modHold h f).openPairs = s.openPairs := rfl
@[simp] theorem State.modHold_mem (h : Fin 256) (f : HolderSt → HolderSt) : (s.modHold h f).mem = s.mem := rfl
@[simp] theorem State.modHold_ecc (h : Fin 256) (f : HolderSt → HolderSt) : (s.modHold h f).ecc = s.ecc := rfl
@[simp] theorem State.modHold_pins (h : Fin 256) (f : HolderSt → HolderSt) : (s.modHold h f).pins = s.pins := rfl
@[simp] theorem State.modHold_sys (h : Fin 256) (f : HolderSt → HolderSt) : (s.modHold h f).sys = s.sys := rfl
@[simp] theorem State.modHold_clk (h : Fin 256) (f : HolderSt → HolderSt) : (s.modHold h f).clk = s.clk := rfl
@[simp] theorem State.modHold_time (h : Fin 256) (f : HolderSt → HolderSt) : (s.modHold h f).time = s.time := rfl
@[simp] theorem State.modHold_boot (h : Fin 256) (f : HolderSt → HolderSt) : (s.modHold h f).boot = s.boot := rfl
@[simp] theorem State.modHold_pwr (h : Fin 256) (f : HolderSt → HolderSt) : (s.modHold h f).pwr = s.pwr := rfl
@[simp] theorem State.modHold_log (h : Fin 256) (f : HolderSt → HolderSt) : (s.modHold h f).log = s.log := rfl
@[simp] theorem State.modHold_stk (h : Fin 256) (f : HolderSt → HolderSt) : (s.modHold h f).stk = s.stk := rfl
@[simp] theorem State.modHold_seq (h : Fin 256) (f : HolderSt → HolderSt) : (s.modHold h f).seq = s.seq := rfl
@[simp] theorem State.modHold_sns (h : Fin 256) (f : HolderSt → HolderSt) : (s.modHold h f).sns = s.sns := rfl
@[simp] theorem State.modHold_fbx (h : Fin 256) (f : HolderSt → HolderSt) : (s.modHold h f).fbx = s.fbx := rfl
@[simp] theorem State.modHold_phs (h : Fin 256) (f : HolderSt → HolderSt) : (s.modHold h f).phs = s.phs := rfl
@[simp] theorem State.modHold_dft (h : Fin 256) (f : HolderSt → HolderSt) : (s.modHold h f).dft = s.dft := rfl
@[simp] theorem State.modHold_thm (h : Fin 256) (f : HolderSt → HolderSt) : (s.modHold h f).thm = s.thm := rfl
@[simp] theorem State.modHold_bat (h : Fin 256) (f : HolderSt → HolderSt) : (s.modHold h f).bat = s.bat := rfl
@[simp] theorem State.modHold_nvm (h : Fin 256) (f : HolderSt → HolderSt) : (s.modHold h f).nvm = s.nvm := rfl
@[simp] theorem State.modHold_otp (h : Fin 256) (f : HolderSt → HolderSt) : (s.modHold h f).otp = s.otp := rfl
@[simp] theorem State.modHold_twi (h : Fin 256) (f : HolderSt → HolderSt) : (s.modHold h f).twi = s.twi := rfl
@[simp] theorem State.modHold_host (h : Fin 256) (f : HolderSt → HolderSt) : (s.modHold h f).host = s.host := rfl
@[simp] theorem State.modHold_spi (h : Fin 256) (f : HolderSt → HolderSt) : (s.modHold h f).spi = s.spi := rfl
@[simp] theorem State.modHold_link (h : Fin 256) (f : HolderSt → HolderSt) : (s.modHold h f).link = s.link := rfl
@[simp] theorem State.modHold_pr (h : Fin 256) (f : HolderSt → HolderSt) : (s.modHold h f).pr = s.pr := rfl
@[simp] theorem State.modHold_feat (h : Fin 256) (f : HolderSt → HolderSt) : (s.modHold h f).feat = s.feat := rfl

@[simp] theorem State.modXfer_pending (i : Fin 32) (f : XferSt → XferSt) : (s.modXfer i f).pending = s.pending := rfl
@[simp] theorem State.modXfer_now (i : Fin 32) (f : XferSt → XferSt) : (s.modXfer i f).now = s.now := rfl
@[simp] theorem State.modXfer_cycle (i : Fin 32) (f : XferSt → XferSt) : (s.modXfer i f).cycle = s.cycle := rfl
@[simp] theorem State.modXfer_freeCtr (i : Fin 32) (f : XferSt → XferSt) : (s.modXfer i f).freeCtr = s.freeCtr := rfl
@[simp] theorem State.modXfer_regs (i : Fin 32) (f : XferSt → XferSt) : (s.modXfer i f).regs = s.regs := rfl
@[simp] theorem State.modXfer_shadow (i : Fin 32) (f : XferSt → XferSt) : (s.modXfer i f).shadow = s.shadow := rfl
@[simp] theorem State.modXfer_openPairs (i : Fin 32) (f : XferSt → XferSt) : (s.modXfer i f).openPairs = s.openPairs := rfl
@[simp] theorem State.modXfer_mem (i : Fin 32) (f : XferSt → XferSt) : (s.modXfer i f).mem = s.mem := rfl
@[simp] theorem State.modXfer_ecc (i : Fin 32) (f : XferSt → XferSt) : (s.modXfer i f).ecc = s.ecc := rfl
@[simp] theorem State.modXfer_pins (i : Fin 32) (f : XferSt → XferSt) : (s.modXfer i f).pins = s.pins := rfl
@[simp] theorem State.modXfer_sys (i : Fin 32) (f : XferSt → XferSt) : (s.modXfer i f).sys = s.sys := rfl
@[simp] theorem State.modXfer_clk (i : Fin 32) (f : XferSt → XferSt) : (s.modXfer i f).clk = s.clk := rfl
@[simp] theorem State.modXfer_time (i : Fin 32) (f : XferSt → XferSt) : (s.modXfer i f).time = s.time := rfl
@[simp] theorem State.modXfer_boot (i : Fin 32) (f : XferSt → XferSt) : (s.modXfer i f).boot = s.boot := rfl
@[simp] theorem State.modXfer_pwr (i : Fin 32) (f : XferSt → XferSt) : (s.modXfer i f).pwr = s.pwr := rfl
@[simp] theorem State.modXfer_log (i : Fin 32) (f : XferSt → XferSt) : (s.modXfer i f).log = s.log := rfl
@[simp] theorem State.modXfer_stk (i : Fin 32) (f : XferSt → XferSt) : (s.modXfer i f).stk = s.stk := rfl
@[simp] theorem State.modXfer_seq (i : Fin 32) (f : XferSt → XferSt) : (s.modXfer i f).seq = s.seq := rfl
@[simp] theorem State.modXfer_sns (i : Fin 32) (f : XferSt → XferSt) : (s.modXfer i f).sns = s.sns := rfl
@[simp] theorem State.modXfer_fbx (i : Fin 32) (f : XferSt → XferSt) : (s.modXfer i f).fbx = s.fbx := rfl
@[simp] theorem State.modXfer_phs (i : Fin 32) (f : XferSt → XferSt) : (s.modXfer i f).phs = s.phs := rfl
@[simp] theorem State.modXfer_dft (i : Fin 32) (f : XferSt → XferSt) : (s.modXfer i f).dft = s.dft := rfl
@[simp] theorem State.modXfer_thm (i : Fin 32) (f : XferSt → XferSt) : (s.modXfer i f).thm = s.thm := rfl
@[simp] theorem State.modXfer_bat (i : Fin 32) (f : XferSt → XferSt) : (s.modXfer i f).bat = s.bat := rfl
@[simp] theorem State.modXfer_nvm (i : Fin 32) (f : XferSt → XferSt) : (s.modXfer i f).nvm = s.nvm := rfl
@[simp] theorem State.modXfer_otp (i : Fin 32) (f : XferSt → XferSt) : (s.modXfer i f).otp = s.otp := rfl
@[simp] theorem State.modXfer_twi (i : Fin 32) (f : XferSt → XferSt) : (s.modXfer i f).twi = s.twi := rfl
@[simp] theorem State.modXfer_host (i : Fin 32) (f : XferSt → XferSt) : (s.modXfer i f).host = s.host := rfl
@[simp] theorem State.modXfer_spi (i : Fin 32) (f : XferSt → XferSt) : (s.modXfer i f).spi = s.spi := rfl
@[simp] theorem State.modXfer_link (i : Fin 32) (f : XferSt → XferSt) : (s.modXfer i f).link = s.link := rfl
@[simp] theorem State.modXfer_pr (i : Fin 32) (f : XferSt → XferSt) : (s.modXfer i f).pr = s.pr := rfl
@[simp] theorem State.modXfer_feat (i : Fin 32) (f : XferSt → XferSt) : (s.modXfer i f).feat = s.feat := rfl

@[simp] theorem State.modStr_pending (b : Fin 16) (f : StrSt → StrSt) : (s.modStr b f).pending = s.pending := rfl
@[simp] theorem State.modStr_now (b : Fin 16) (f : StrSt → StrSt) : (s.modStr b f).now = s.now := rfl
@[simp] theorem State.modStr_cycle (b : Fin 16) (f : StrSt → StrSt) : (s.modStr b f).cycle = s.cycle := rfl
@[simp] theorem State.modStr_freeCtr (b : Fin 16) (f : StrSt → StrSt) : (s.modStr b f).freeCtr = s.freeCtr := rfl
@[simp] theorem State.modStr_regs (b : Fin 16) (f : StrSt → StrSt) : (s.modStr b f).regs = s.regs := rfl
@[simp] theorem State.modStr_shadow (b : Fin 16) (f : StrSt → StrSt) : (s.modStr b f).shadow = s.shadow := rfl
@[simp] theorem State.modStr_openPairs (b : Fin 16) (f : StrSt → StrSt) : (s.modStr b f).openPairs = s.openPairs := rfl
@[simp] theorem State.modStr_mem (b : Fin 16) (f : StrSt → StrSt) : (s.modStr b f).mem = s.mem := rfl
@[simp] theorem State.modStr_ecc (b : Fin 16) (f : StrSt → StrSt) : (s.modStr b f).ecc = s.ecc := rfl
@[simp] theorem State.modStr_pins (b : Fin 16) (f : StrSt → StrSt) : (s.modStr b f).pins = s.pins := rfl
@[simp] theorem State.modStr_sys (b : Fin 16) (f : StrSt → StrSt) : (s.modStr b f).sys = s.sys := rfl
@[simp] theorem State.modStr_clk (b : Fin 16) (f : StrSt → StrSt) : (s.modStr b f).clk = s.clk := rfl
@[simp] theorem State.modStr_time (b : Fin 16) (f : StrSt → StrSt) : (s.modStr b f).time = s.time := rfl
@[simp] theorem State.modStr_boot (b : Fin 16) (f : StrSt → StrSt) : (s.modStr b f).boot = s.boot := rfl
@[simp] theorem State.modStr_pwr (b : Fin 16) (f : StrSt → StrSt) : (s.modStr b f).pwr = s.pwr := rfl
@[simp] theorem State.modStr_log (b : Fin 16) (f : StrSt → StrSt) : (s.modStr b f).log = s.log := rfl
@[simp] theorem State.modStr_stk (b : Fin 16) (f : StrSt → StrSt) : (s.modStr b f).stk = s.stk := rfl
@[simp] theorem State.modStr_seq (b : Fin 16) (f : StrSt → StrSt) : (s.modStr b f).seq = s.seq := rfl
@[simp] theorem State.modStr_sns (b : Fin 16) (f : StrSt → StrSt) : (s.modStr b f).sns = s.sns := rfl
@[simp] theorem State.modStr_fbx (b : Fin 16) (f : StrSt → StrSt) : (s.modStr b f).fbx = s.fbx := rfl
@[simp] theorem State.modStr_phs (b : Fin 16) (f : StrSt → StrSt) : (s.modStr b f).phs = s.phs := rfl
@[simp] theorem State.modStr_dft (b : Fin 16) (f : StrSt → StrSt) : (s.modStr b f).dft = s.dft := rfl
@[simp] theorem State.modStr_emb (b : Fin 16) (f : StrSt → StrSt) : (s.modStr b f).emb = s.emb := rfl
@[simp] theorem State.modStr_thm (b : Fin 16) (f : StrSt → StrSt) : (s.modStr b f).thm = s.thm := rfl
@[simp] theorem State.modStr_nvm (b : Fin 16) (f : StrSt → StrSt) : (s.modStr b f).nvm = s.nvm := rfl
@[simp] theorem State.modStr_otp (b : Fin 16) (f : StrSt → StrSt) : (s.modStr b f).otp = s.otp := rfl
@[simp] theorem State.modStr_twi (b : Fin 16) (f : StrSt → StrSt) : (s.modStr b f).twi = s.twi := rfl
@[simp] theorem State.modStr_host (b : Fin 16) (f : StrSt → StrSt) : (s.modStr b f).host = s.host := rfl
@[simp] theorem State.modStr_spi (b : Fin 16) (f : StrSt → StrSt) : (s.modStr b f).spi = s.spi := rfl
@[simp] theorem State.modStr_link (b : Fin 16) (f : StrSt → StrSt) : (s.modStr b f).link = s.link := rfl
@[simp] theorem State.modStr_pr (b : Fin 16) (f : StrSt → StrSt) : (s.modStr b f).pr = s.pr := rfl
@[simp] theorem State.modStr_feat (b : Fin 16) (f : StrSt → StrSt) : (s.modStr b f).feat = s.feat := rfl

@[simp] theorem State.modZone_pending (z : Fin 8) (f : ZoneSt → ZoneSt) : (s.modZone z f).pending = s.pending := rfl
@[simp] theorem State.modZone_now (z : Fin 8) (f : ZoneSt → ZoneSt) : (s.modZone z f).now = s.now := rfl
@[simp] theorem State.modZone_cycle (z : Fin 8) (f : ZoneSt → ZoneSt) : (s.modZone z f).cycle = s.cycle := rfl
@[simp] theorem State.modZone_freeCtr (z : Fin 8) (f : ZoneSt → ZoneSt) : (s.modZone z f).freeCtr = s.freeCtr := rfl
@[simp] theorem State.modZone_regs (z : Fin 8) (f : ZoneSt → ZoneSt) : (s.modZone z f).regs = s.regs := rfl
@[simp] theorem State.modZone_shadow (z : Fin 8) (f : ZoneSt → ZoneSt) : (s.modZone z f).shadow = s.shadow := rfl
@[simp] theorem State.modZone_openPairs (z : Fin 8) (f : ZoneSt → ZoneSt) : (s.modZone z f).openPairs = s.openPairs := rfl
@[simp] theorem State.modZone_mem (z : Fin 8) (f : ZoneSt → ZoneSt) : (s.modZone z f).mem = s.mem := rfl
@[simp] theorem State.modZone_ecc (z : Fin 8) (f : ZoneSt → ZoneSt) : (s.modZone z f).ecc = s.ecc := rfl
@[simp] theorem State.modZone_pins (z : Fin 8) (f : ZoneSt → ZoneSt) : (s.modZone z f).pins = s.pins := rfl
@[simp] theorem State.modZone_sys (z : Fin 8) (f : ZoneSt → ZoneSt) : (s.modZone z f).sys = s.sys := rfl
@[simp] theorem State.modZone_clk (z : Fin 8) (f : ZoneSt → ZoneSt) : (s.modZone z f).clk = s.clk := rfl
@[simp] theorem State.modZone_time (z : Fin 8) (f : ZoneSt → ZoneSt) : (s.modZone z f).time = s.time := rfl
@[simp] theorem State.modZone_boot (z : Fin 8) (f : ZoneSt → ZoneSt) : (s.modZone z f).boot = s.boot := rfl
@[simp] theorem State.modZone_pwr (z : Fin 8) (f : ZoneSt → ZoneSt) : (s.modZone z f).pwr = s.pwr := rfl
@[simp] theorem State.modZone_log (z : Fin 8) (f : ZoneSt → ZoneSt) : (s.modZone z f).log = s.log := rfl
@[simp] theorem State.modZone_stk (z : Fin 8) (f : ZoneSt → ZoneSt) : (s.modZone z f).stk = s.stk := rfl
@[simp] theorem State.modZone_seq (z : Fin 8) (f : ZoneSt → ZoneSt) : (s.modZone z f).seq = s.seq := rfl
@[simp] theorem State.modZone_sns (z : Fin 8) (f : ZoneSt → ZoneSt) : (s.modZone z f).sns = s.sns := rfl
@[simp] theorem State.modZone_fbx (z : Fin 8) (f : ZoneSt → ZoneSt) : (s.modZone z f).fbx = s.fbx := rfl
@[simp] theorem State.modZone_phs (z : Fin 8) (f : ZoneSt → ZoneSt) : (s.modZone z f).phs = s.phs := rfl
@[simp] theorem State.modZone_dft (z : Fin 8) (f : ZoneSt → ZoneSt) : (s.modZone z f).dft = s.dft := rfl
@[simp] theorem State.modZone_emb (z : Fin 8) (f : ZoneSt → ZoneSt) : (s.modZone z f).emb = s.emb := rfl
@[simp] theorem State.modZone_bat (z : Fin 8) (f : ZoneSt → ZoneSt) : (s.modZone z f).bat = s.bat := rfl
@[simp] theorem State.modZone_nvm (z : Fin 8) (f : ZoneSt → ZoneSt) : (s.modZone z f).nvm = s.nvm := rfl
@[simp] theorem State.modZone_otp (z : Fin 8) (f : ZoneSt → ZoneSt) : (s.modZone z f).otp = s.otp := rfl
@[simp] theorem State.modZone_twi (z : Fin 8) (f : ZoneSt → ZoneSt) : (s.modZone z f).twi = s.twi := rfl
@[simp] theorem State.modZone_host (z : Fin 8) (f : ZoneSt → ZoneSt) : (s.modZone z f).host = s.host := rfl
@[simp] theorem State.modZone_spi (z : Fin 8) (f : ZoneSt → ZoneSt) : (s.modZone z f).spi = s.spi := rfl
@[simp] theorem State.modZone_link (z : Fin 8) (f : ZoneSt → ZoneSt) : (s.modZone z f).link = s.link := rfl
@[simp] theorem State.modZone_pr (z : Fin 8) (f : ZoneSt → ZoneSt) : (s.modZone z f).pr = s.pr := rfl
@[simp] theorem State.modZone_feat (z : Fin 8) (f : ZoneSt → ZoneSt) : (s.modZone z f).feat = s.feat := rfl

@[simp] theorem State.modTwi_pending (i : Fin 3) (f : TwiSt → TwiSt) : (s.modTwi i f).pending = s.pending := rfl
@[simp] theorem State.modTwi_now (i : Fin 3) (f : TwiSt → TwiSt) : (s.modTwi i f).now = s.now := rfl
@[simp] theorem State.modTwi_cycle (i : Fin 3) (f : TwiSt → TwiSt) : (s.modTwi i f).cycle = s.cycle := rfl
@[simp] theorem State.modTwi_freeCtr (i : Fin 3) (f : TwiSt → TwiSt) : (s.modTwi i f).freeCtr = s.freeCtr := rfl
@[simp] theorem State.modTwi_regs (i : Fin 3) (f : TwiSt → TwiSt) : (s.modTwi i f).regs = s.regs := rfl
@[simp] theorem State.modTwi_shadow (i : Fin 3) (f : TwiSt → TwiSt) : (s.modTwi i f).shadow = s.shadow := rfl
@[simp] theorem State.modTwi_openPairs (i : Fin 3) (f : TwiSt → TwiSt) : (s.modTwi i f).openPairs = s.openPairs := rfl
@[simp] theorem State.modTwi_mem (i : Fin 3) (f : TwiSt → TwiSt) : (s.modTwi i f).mem = s.mem := rfl
@[simp] theorem State.modTwi_ecc (i : Fin 3) (f : TwiSt → TwiSt) : (s.modTwi i f).ecc = s.ecc := rfl
@[simp] theorem State.modTwi_pins (i : Fin 3) (f : TwiSt → TwiSt) : (s.modTwi i f).pins = s.pins := rfl
@[simp] theorem State.modTwi_sys (i : Fin 3) (f : TwiSt → TwiSt) : (s.modTwi i f).sys = s.sys := rfl
@[simp] theorem State.modTwi_clk (i : Fin 3) (f : TwiSt → TwiSt) : (s.modTwi i f).clk = s.clk := rfl
@[simp] theorem State.modTwi_time (i : Fin 3) (f : TwiSt → TwiSt) : (s.modTwi i f).time = s.time := rfl
@[simp] theorem State.modTwi_boot (i : Fin 3) (f : TwiSt → TwiSt) : (s.modTwi i f).boot = s.boot := rfl
@[simp] theorem State.modTwi_pwr (i : Fin 3) (f : TwiSt → TwiSt) : (s.modTwi i f).pwr = s.pwr := rfl
@[simp] theorem State.modTwi_log (i : Fin 3) (f : TwiSt → TwiSt) : (s.modTwi i f).log = s.log := rfl
@[simp] theorem State.modTwi_stk (i : Fin 3) (f : TwiSt → TwiSt) : (s.modTwi i f).stk = s.stk := rfl
@[simp] theorem State.modTwi_seq (i : Fin 3) (f : TwiSt → TwiSt) : (s.modTwi i f).seq = s.seq := rfl
@[simp] theorem State.modTwi_sns (i : Fin 3) (f : TwiSt → TwiSt) : (s.modTwi i f).sns = s.sns := rfl
@[simp] theorem State.modTwi_fbx (i : Fin 3) (f : TwiSt → TwiSt) : (s.modTwi i f).fbx = s.fbx := rfl
@[simp] theorem State.modTwi_phs (i : Fin 3) (f : TwiSt → TwiSt) : (s.modTwi i f).phs = s.phs := rfl
@[simp] theorem State.modTwi_dft (i : Fin 3) (f : TwiSt → TwiSt) : (s.modTwi i f).dft = s.dft := rfl
@[simp] theorem State.modTwi_emb (i : Fin 3) (f : TwiSt → TwiSt) : (s.modTwi i f).emb = s.emb := rfl
@[simp] theorem State.modTwi_thm (i : Fin 3) (f : TwiSt → TwiSt) : (s.modTwi i f).thm = s.thm := rfl
@[simp] theorem State.modTwi_bat (i : Fin 3) (f : TwiSt → TwiSt) : (s.modTwi i f).bat = s.bat := rfl
@[simp] theorem State.modTwi_nvm (i : Fin 3) (f : TwiSt → TwiSt) : (s.modTwi i f).nvm = s.nvm := rfl
@[simp] theorem State.modTwi_otp (i : Fin 3) (f : TwiSt → TwiSt) : (s.modTwi i f).otp = s.otp := rfl
@[simp] theorem State.modTwi_host (i : Fin 3) (f : TwiSt → TwiSt) : (s.modTwi i f).host = s.host := rfl
@[simp] theorem State.modTwi_spi (i : Fin 3) (f : TwiSt → TwiSt) : (s.modTwi i f).spi = s.spi := rfl
@[simp] theorem State.modTwi_link (i : Fin 3) (f : TwiSt → TwiSt) : (s.modTwi i f).link = s.link := rfl
@[simp] theorem State.modTwi_pr (i : Fin 3) (f : TwiSt → TwiSt) : (s.modTwi i f).pr = s.pr := rfl
@[simp] theorem State.modTwi_feat (i : Fin 3) (f : TwiSt → TwiSt) : (s.modTwi i f).feat = s.feat := rfl

@[simp] theorem State.modHost_pending (f : HostSt → HostSt) : (s.modHost f).pending = s.pending := rfl
@[simp] theorem State.modHost_now (f : HostSt → HostSt) : (s.modHost f).now = s.now := rfl
@[simp] theorem State.modHost_cycle (f : HostSt → HostSt) : (s.modHost f).cycle = s.cycle := rfl
@[simp] theorem State.modHost_freeCtr (f : HostSt → HostSt) : (s.modHost f).freeCtr = s.freeCtr := rfl
@[simp] theorem State.modHost_regs (f : HostSt → HostSt) : (s.modHost f).regs = s.regs := rfl
@[simp] theorem State.modHost_shadow (f : HostSt → HostSt) : (s.modHost f).shadow = s.shadow := rfl
@[simp] theorem State.modHost_openPairs (f : HostSt → HostSt) : (s.modHost f).openPairs = s.openPairs := rfl
@[simp] theorem State.modHost_mem (f : HostSt → HostSt) : (s.modHost f).mem = s.mem := rfl
@[simp] theorem State.modHost_ecc (f : HostSt → HostSt) : (s.modHost f).ecc = s.ecc := rfl
@[simp] theorem State.modHost_pins (f : HostSt → HostSt) : (s.modHost f).pins = s.pins := rfl
@[simp] theorem State.modHost_sys (f : HostSt → HostSt) : (s.modHost f).sys = s.sys := rfl
@[simp] theorem State.modHost_clk (f : HostSt → HostSt) : (s.modHost f).clk = s.clk := rfl
@[simp] theorem State.modHost_time (f : HostSt → HostSt) : (s.modHost f).time = s.time := rfl
@[simp] theorem State.modHost_boot (f : HostSt → HostSt) : (s.modHost f).boot = s.boot := rfl
@[simp] theorem State.modHost_pwr (f : HostSt → HostSt) : (s.modHost f).pwr = s.pwr := rfl
@[simp] theorem State.modHost_log (f : HostSt → HostSt) : (s.modHost f).log = s.log := rfl
@[simp] theorem State.modHost_stk (f : HostSt → HostSt) : (s.modHost f).stk = s.stk := rfl
@[simp] theorem State.modHost_seq (f : HostSt → HostSt) : (s.modHost f).seq = s.seq := rfl
@[simp] theorem State.modHost_sns (f : HostSt → HostSt) : (s.modHost f).sns = s.sns := rfl
@[simp] theorem State.modHost_fbx (f : HostSt → HostSt) : (s.modHost f).fbx = s.fbx := rfl
@[simp] theorem State.modHost_phs (f : HostSt → HostSt) : (s.modHost f).phs = s.phs := rfl
@[simp] theorem State.modHost_dft (f : HostSt → HostSt) : (s.modHost f).dft = s.dft := rfl
@[simp] theorem State.modHost_emb (f : HostSt → HostSt) : (s.modHost f).emb = s.emb := rfl
@[simp] theorem State.modHost_thm (f : HostSt → HostSt) : (s.modHost f).thm = s.thm := rfl
@[simp] theorem State.modHost_bat (f : HostSt → HostSt) : (s.modHost f).bat = s.bat := rfl
@[simp] theorem State.modHost_nvm (f : HostSt → HostSt) : (s.modHost f).nvm = s.nvm := rfl
@[simp] theorem State.modHost_otp (f : HostSt → HostSt) : (s.modHost f).otp = s.otp := rfl
@[simp] theorem State.modHost_twi (f : HostSt → HostSt) : (s.modHost f).twi = s.twi := rfl
@[simp] theorem State.modHost_spi (f : HostSt → HostSt) : (s.modHost f).spi = s.spi := rfl
@[simp] theorem State.modHost_link (f : HostSt → HostSt) : (s.modHost f).link = s.link := rfl
@[simp] theorem State.modHost_pr (f : HostSt → HostSt) : (s.modHost f).pr = s.pr := rfl
@[simp] theorem State.modHost_feat (f : HostSt → HostSt) : (s.modHost f).feat = s.feat := rfl

@[simp] theorem State.modPh_pending (n : Fin 48) (f : PhaseSt → PhaseSt) : (s.modPh n f).pending = s.pending := rfl
@[simp] theorem State.modPh_now (n : Fin 48) (f : PhaseSt → PhaseSt) : (s.modPh n f).now = s.now := rfl
@[simp] theorem State.modPh_cycle (n : Fin 48) (f : PhaseSt → PhaseSt) : (s.modPh n f).cycle = s.cycle := rfl
@[simp] theorem State.modPh_freeCtr (n : Fin 48) (f : PhaseSt → PhaseSt) : (s.modPh n f).freeCtr = s.freeCtr := rfl
@[simp] theorem State.modPh_regs (n : Fin 48) (f : PhaseSt → PhaseSt) : (s.modPh n f).regs = s.regs := rfl
@[simp] theorem State.modPh_shadow (n : Fin 48) (f : PhaseSt → PhaseSt) : (s.modPh n f).shadow = s.shadow := rfl
@[simp] theorem State.modPh_openPairs (n : Fin 48) (f : PhaseSt → PhaseSt) : (s.modPh n f).openPairs = s.openPairs := rfl
@[simp] theorem State.modPh_mem (n : Fin 48) (f : PhaseSt → PhaseSt) : (s.modPh n f).mem = s.mem := rfl
@[simp] theorem State.modPh_ecc (n : Fin 48) (f : PhaseSt → PhaseSt) : (s.modPh n f).ecc = s.ecc := rfl
@[simp] theorem State.modPh_pins (n : Fin 48) (f : PhaseSt → PhaseSt) : (s.modPh n f).pins = s.pins := rfl
@[simp] theorem State.modPh_sys (n : Fin 48) (f : PhaseSt → PhaseSt) : (s.modPh n f).sys = s.sys := rfl
@[simp] theorem State.modPh_clk (n : Fin 48) (f : PhaseSt → PhaseSt) : (s.modPh n f).clk = s.clk := rfl
@[simp] theorem State.modPh_time (n : Fin 48) (f : PhaseSt → PhaseSt) : (s.modPh n f).time = s.time := rfl
@[simp] theorem State.modPh_boot (n : Fin 48) (f : PhaseSt → PhaseSt) : (s.modPh n f).boot = s.boot := rfl
@[simp] theorem State.modPh_pwr (n : Fin 48) (f : PhaseSt → PhaseSt) : (s.modPh n f).pwr = s.pwr := rfl
@[simp] theorem State.modPh_log (n : Fin 48) (f : PhaseSt → PhaseSt) : (s.modPh n f).log = s.log := rfl
@[simp] theorem State.modPh_stk (n : Fin 48) (f : PhaseSt → PhaseSt) : (s.modPh n f).stk = s.stk := rfl
@[simp] theorem State.modPh_seq (n : Fin 48) (f : PhaseSt → PhaseSt) : (s.modPh n f).seq = s.seq := rfl
@[simp] theorem State.modPh_sns (n : Fin 48) (f : PhaseSt → PhaseSt) : (s.modPh n f).sns = s.sns := rfl
@[simp] theorem State.modPh_fbx (n : Fin 48) (f : PhaseSt → PhaseSt) : (s.modPh n f).fbx = s.fbx := rfl
@[simp] theorem State.modPh_dft (n : Fin 48) (f : PhaseSt → PhaseSt) : (s.modPh n f).dft = s.dft := rfl
@[simp] theorem State.modPh_emb (n : Fin 48) (f : PhaseSt → PhaseSt) : (s.modPh n f).emb = s.emb := rfl
@[simp] theorem State.modPh_thm (n : Fin 48) (f : PhaseSt → PhaseSt) : (s.modPh n f).thm = s.thm := rfl
@[simp] theorem State.modPh_bat (n : Fin 48) (f : PhaseSt → PhaseSt) : (s.modPh n f).bat = s.bat := rfl
@[simp] theorem State.modPh_nvm (n : Fin 48) (f : PhaseSt → PhaseSt) : (s.modPh n f).nvm = s.nvm := rfl
@[simp] theorem State.modPh_otp (n : Fin 48) (f : PhaseSt → PhaseSt) : (s.modPh n f).otp = s.otp := rfl
@[simp] theorem State.modPh_twi (n : Fin 48) (f : PhaseSt → PhaseSt) : (s.modPh n f).twi = s.twi := rfl
@[simp] theorem State.modPh_host (n : Fin 48) (f : PhaseSt → PhaseSt) : (s.modPh n f).host = s.host := rfl
@[simp] theorem State.modPh_spi (n : Fin 48) (f : PhaseSt → PhaseSt) : (s.modPh n f).spi = s.spi := rfl
@[simp] theorem State.modPh_link (n : Fin 48) (f : PhaseSt → PhaseSt) : (s.modPh n f).link = s.link := rfl
@[simp] theorem State.modPh_pr (n : Fin 48) (f : PhaseSt → PhaseSt) : (s.modPh n f).pr = s.pr := rfl
@[simp] theorem State.modPh_feat (n : Fin 48) (f : PhaseSt → PhaseSt) : (s.modPh n f).feat = s.feat := rfl

@[simp] theorem State.modRail_pending (g : Fin 16) (f : RailSt → RailSt) : (s.modRail g f).pending = s.pending := rfl
@[simp] theorem State.modRail_now (g : Fin 16) (f : RailSt → RailSt) : (s.modRail g f).now = s.now := rfl
@[simp] theorem State.modRail_cycle (g : Fin 16) (f : RailSt → RailSt) : (s.modRail g f).cycle = s.cycle := rfl
@[simp] theorem State.modRail_freeCtr (g : Fin 16) (f : RailSt → RailSt) : (s.modRail g f).freeCtr = s.freeCtr := rfl
@[simp] theorem State.modRail_regs (g : Fin 16) (f : RailSt → RailSt) : (s.modRail g f).regs = s.regs := rfl
@[simp] theorem State.modRail_shadow (g : Fin 16) (f : RailSt → RailSt) : (s.modRail g f).shadow = s.shadow := rfl
@[simp] theorem State.modRail_openPairs (g : Fin 16) (f : RailSt → RailSt) : (s.modRail g f).openPairs = s.openPairs := rfl
@[simp] theorem State.modRail_mem (g : Fin 16) (f : RailSt → RailSt) : (s.modRail g f).mem = s.mem := rfl
@[simp] theorem State.modRail_ecc (g : Fin 16) (f : RailSt → RailSt) : (s.modRail g f).ecc = s.ecc := rfl
@[simp] theorem State.modRail_pins (g : Fin 16) (f : RailSt → RailSt) : (s.modRail g f).pins = s.pins := rfl
@[simp] theorem State.modRail_sys (g : Fin 16) (f : RailSt → RailSt) : (s.modRail g f).sys = s.sys := rfl
@[simp] theorem State.modRail_clk (g : Fin 16) (f : RailSt → RailSt) : (s.modRail g f).clk = s.clk := rfl
@[simp] theorem State.modRail_time (g : Fin 16) (f : RailSt → RailSt) : (s.modRail g f).time = s.time := rfl
@[simp] theorem State.modRail_boot (g : Fin 16) (f : RailSt → RailSt) : (s.modRail g f).boot = s.boot := rfl
@[simp] theorem State.modRail_pwr (g : Fin 16) (f : RailSt → RailSt) : (s.modRail g f).pwr = s.pwr := rfl
@[simp] theorem State.modRail_log (g : Fin 16) (f : RailSt → RailSt) : (s.modRail g f).log = s.log := rfl
@[simp] theorem State.modRail_stk (g : Fin 16) (f : RailSt → RailSt) : (s.modRail g f).stk = s.stk := rfl
@[simp] theorem State.modRail_seq (g : Fin 16) (f : RailSt → RailSt) : (s.modRail g f).seq = s.seq := rfl
@[simp] theorem State.modRail_sns (g : Fin 16) (f : RailSt → RailSt) : (s.modRail g f).sns = s.sns := rfl
@[simp] theorem State.modRail_fbx (g : Fin 16) (f : RailSt → RailSt) : (s.modRail g f).fbx = s.fbx := rfl
@[simp] theorem State.modRail_dft (g : Fin 16) (f : RailSt → RailSt) : (s.modRail g f).dft = s.dft := rfl
@[simp] theorem State.modRail_emb (g : Fin 16) (f : RailSt → RailSt) : (s.modRail g f).emb = s.emb := rfl
@[simp] theorem State.modRail_thm (g : Fin 16) (f : RailSt → RailSt) : (s.modRail g f).thm = s.thm := rfl
@[simp] theorem State.modRail_bat (g : Fin 16) (f : RailSt → RailSt) : (s.modRail g f).bat = s.bat := rfl
@[simp] theorem State.modRail_nvm (g : Fin 16) (f : RailSt → RailSt) : (s.modRail g f).nvm = s.nvm := rfl
@[simp] theorem State.modRail_otp (g : Fin 16) (f : RailSt → RailSt) : (s.modRail g f).otp = s.otp := rfl
@[simp] theorem State.modRail_twi (g : Fin 16) (f : RailSt → RailSt) : (s.modRail g f).twi = s.twi := rfl
@[simp] theorem State.modRail_host (g : Fin 16) (f : RailSt → RailSt) : (s.modRail g f).host = s.host := rfl
@[simp] theorem State.modRail_spi (g : Fin 16) (f : RailSt → RailSt) : (s.modRail g f).spi = s.spi := rfl
@[simp] theorem State.modRail_link (g : Fin 16) (f : RailSt → RailSt) : (s.modRail g f).link = s.link := rfl
@[simp] theorem State.modRail_pr (g : Fin 16) (f : RailSt → RailSt) : (s.modRail g f).pr = s.pr := rfl
@[simp] theorem State.modRail_feat (g : Fin 16) (f : RailSt → RailSt) : (s.modRail g f).feat = s.feat := rfl

@[simp] theorem State.modCtx_pending (x : Fin 128) (f : CtxSt → CtxSt) : (s.modCtx x f).pending = s.pending := rfl
@[simp] theorem State.modCtx_now (x : Fin 128) (f : CtxSt → CtxSt) : (s.modCtx x f).now = s.now := rfl
@[simp] theorem State.modCtx_cycle (x : Fin 128) (f : CtxSt → CtxSt) : (s.modCtx x f).cycle = s.cycle := rfl
@[simp] theorem State.modCtx_freeCtr (x : Fin 128) (f : CtxSt → CtxSt) : (s.modCtx x f).freeCtr = s.freeCtr := rfl
@[simp] theorem State.modCtx_regs (x : Fin 128) (f : CtxSt → CtxSt) : (s.modCtx x f).regs = s.regs := rfl
@[simp] theorem State.modCtx_shadow (x : Fin 128) (f : CtxSt → CtxSt) : (s.modCtx x f).shadow = s.shadow := rfl
@[simp] theorem State.modCtx_openPairs (x : Fin 128) (f : CtxSt → CtxSt) : (s.modCtx x f).openPairs = s.openPairs := rfl
@[simp] theorem State.modCtx_mem (x : Fin 128) (f : CtxSt → CtxSt) : (s.modCtx x f).mem = s.mem := rfl
@[simp] theorem State.modCtx_ecc (x : Fin 128) (f : CtxSt → CtxSt) : (s.modCtx x f).ecc = s.ecc := rfl
@[simp] theorem State.modCtx_pins (x : Fin 128) (f : CtxSt → CtxSt) : (s.modCtx x f).pins = s.pins := rfl
@[simp] theorem State.modCtx_sys (x : Fin 128) (f : CtxSt → CtxSt) : (s.modCtx x f).sys = s.sys := rfl
@[simp] theorem State.modCtx_clk (x : Fin 128) (f : CtxSt → CtxSt) : (s.modCtx x f).clk = s.clk := rfl
@[simp] theorem State.modCtx_time (x : Fin 128) (f : CtxSt → CtxSt) : (s.modCtx x f).time = s.time := rfl
@[simp] theorem State.modCtx_boot (x : Fin 128) (f : CtxSt → CtxSt) : (s.modCtx x f).boot = s.boot := rfl
@[simp] theorem State.modCtx_pwr (x : Fin 128) (f : CtxSt → CtxSt) : (s.modCtx x f).pwr = s.pwr := rfl
@[simp] theorem State.modCtx_log (x : Fin 128) (f : CtxSt → CtxSt) : (s.modCtx x f).log = s.log := rfl
@[simp] theorem State.modCtx_stk (x : Fin 128) (f : CtxSt → CtxSt) : (s.modCtx x f).stk = s.stk := rfl
@[simp] theorem State.modCtx_seq (x : Fin 128) (f : CtxSt → CtxSt) : (s.modCtx x f).seq = s.seq := rfl
@[simp] theorem State.modCtx_sns (x : Fin 128) (f : CtxSt → CtxSt) : (s.modCtx x f).sns = s.sns := rfl
@[simp] theorem State.modCtx_phs (x : Fin 128) (f : CtxSt → CtxSt) : (s.modCtx x f).phs = s.phs := rfl
@[simp] theorem State.modCtx_dft (x : Fin 128) (f : CtxSt → CtxSt) : (s.modCtx x f).dft = s.dft := rfl
@[simp] theorem State.modCtx_emb (x : Fin 128) (f : CtxSt → CtxSt) : (s.modCtx x f).emb = s.emb := rfl
@[simp] theorem State.modCtx_thm (x : Fin 128) (f : CtxSt → CtxSt) : (s.modCtx x f).thm = s.thm := rfl
@[simp] theorem State.modCtx_bat (x : Fin 128) (f : CtxSt → CtxSt) : (s.modCtx x f).bat = s.bat := rfl
@[simp] theorem State.modCtx_nvm (x : Fin 128) (f : CtxSt → CtxSt) : (s.modCtx x f).nvm = s.nvm := rfl
@[simp] theorem State.modCtx_otp (x : Fin 128) (f : CtxSt → CtxSt) : (s.modCtx x f).otp = s.otp := rfl
@[simp] theorem State.modCtx_twi (x : Fin 128) (f : CtxSt → CtxSt) : (s.modCtx x f).twi = s.twi := rfl
@[simp] theorem State.modCtx_host (x : Fin 128) (f : CtxSt → CtxSt) : (s.modCtx x f).host = s.host := rfl
@[simp] theorem State.modCtx_spi (x : Fin 128) (f : CtxSt → CtxSt) : (s.modCtx x f).spi = s.spi := rfl
@[simp] theorem State.modCtx_link (x : Fin 128) (f : CtxSt → CtxSt) : (s.modCtx x f).link = s.link := rfl
@[simp] theorem State.modCtx_pr (x : Fin 128) (f : CtxSt → CtxSt) : (s.modCtx x f).pr = s.pr := rfl
@[simp] theorem State.modCtx_feat (x : Fin 128) (f : CtxSt → CtxSt) : (s.modCtx x f).feat = s.feat := rfl

@[simp] theorem State.modPend_pending (i : Fin 64) (f : PendSt → PendSt) : (s.modPend i f).pending = s.pending := rfl
@[simp] theorem State.modPend_now (i : Fin 64) (f : PendSt → PendSt) : (s.modPend i f).now = s.now := rfl
@[simp] theorem State.modPend_cycle (i : Fin 64) (f : PendSt → PendSt) : (s.modPend i f).cycle = s.cycle := rfl
@[simp] theorem State.modPend_freeCtr (i : Fin 64) (f : PendSt → PendSt) : (s.modPend i f).freeCtr = s.freeCtr := rfl
@[simp] theorem State.modPend_regs (i : Fin 64) (f : PendSt → PendSt) : (s.modPend i f).regs = s.regs := rfl
@[simp] theorem State.modPend_shadow (i : Fin 64) (f : PendSt → PendSt) : (s.modPend i f).shadow = s.shadow := rfl
@[simp] theorem State.modPend_openPairs (i : Fin 64) (f : PendSt → PendSt) : (s.modPend i f).openPairs = s.openPairs := rfl
@[simp] theorem State.modPend_mem (i : Fin 64) (f : PendSt → PendSt) : (s.modPend i f).mem = s.mem := rfl
@[simp] theorem State.modPend_ecc (i : Fin 64) (f : PendSt → PendSt) : (s.modPend i f).ecc = s.ecc := rfl
@[simp] theorem State.modPend_pins (i : Fin 64) (f : PendSt → PendSt) : (s.modPend i f).pins = s.pins := rfl
@[simp] theorem State.modPend_sys (i : Fin 64) (f : PendSt → PendSt) : (s.modPend i f).sys = s.sys := rfl
@[simp] theorem State.modPend_clk (i : Fin 64) (f : PendSt → PendSt) : (s.modPend i f).clk = s.clk := rfl
@[simp] theorem State.modPend_time (i : Fin 64) (f : PendSt → PendSt) : (s.modPend i f).time = s.time := rfl
@[simp] theorem State.modPend_boot (i : Fin 64) (f : PendSt → PendSt) : (s.modPend i f).boot = s.boot := rfl
@[simp] theorem State.modPend_pwr (i : Fin 64) (f : PendSt → PendSt) : (s.modPend i f).pwr = s.pwr := rfl
@[simp] theorem State.modPend_log (i : Fin 64) (f : PendSt → PendSt) : (s.modPend i f).log = s.log := rfl
@[simp] theorem State.modPend_stk (i : Fin 64) (f : PendSt → PendSt) : (s.modPend i f).stk = s.stk := rfl
@[simp] theorem State.modPend_seq (i : Fin 64) (f : PendSt → PendSt) : (s.modPend i f).seq = s.seq := rfl
@[simp] theorem State.modPend_sns (i : Fin 64) (f : PendSt → PendSt) : (s.modPend i f).sns = s.sns := rfl
@[simp] theorem State.modPend_fbx (i : Fin 64) (f : PendSt → PendSt) : (s.modPend i f).fbx = s.fbx := rfl
@[simp] theorem State.modPend_phs (i : Fin 64) (f : PendSt → PendSt) : (s.modPend i f).phs = s.phs := rfl
@[simp] theorem State.modPend_emb (i : Fin 64) (f : PendSt → PendSt) : (s.modPend i f).emb = s.emb := rfl
@[simp] theorem State.modPend_thm (i : Fin 64) (f : PendSt → PendSt) : (s.modPend i f).thm = s.thm := rfl
@[simp] theorem State.modPend_bat (i : Fin 64) (f : PendSt → PendSt) : (s.modPend i f).bat = s.bat := rfl
@[simp] theorem State.modPend_nvm (i : Fin 64) (f : PendSt → PendSt) : (s.modPend i f).nvm = s.nvm := rfl
@[simp] theorem State.modPend_otp (i : Fin 64) (f : PendSt → PendSt) : (s.modPend i f).otp = s.otp := rfl
@[simp] theorem State.modPend_twi (i : Fin 64) (f : PendSt → PendSt) : (s.modPend i f).twi = s.twi := rfl
@[simp] theorem State.modPend_host (i : Fin 64) (f : PendSt → PendSt) : (s.modPend i f).host = s.host := rfl
@[simp] theorem State.modPend_spi (i : Fin 64) (f : PendSt → PendSt) : (s.modPend i f).spi = s.spi := rfl
@[simp] theorem State.modPend_link (i : Fin 64) (f : PendSt → PendSt) : (s.modPend i f).link = s.link := rfl
@[simp] theorem State.modPend_pr (i : Fin 64) (f : PendSt → PendSt) : (s.modPend i f).pr = s.pr := rfl
@[simp] theorem State.modPend_feat (i : Fin 64) (f : PendSt → PendSt) : (s.modPend i f).feat = s.feat := rfl

@[simp] theorem State.modRx_pending (d : Fin 32) (f : RxSt → RxSt) : (s.modRx d f).pending = s.pending := rfl
@[simp] theorem State.modRx_now (d : Fin 32) (f : RxSt → RxSt) : (s.modRx d f).now = s.now := rfl
@[simp] theorem State.modRx_cycle (d : Fin 32) (f : RxSt → RxSt) : (s.modRx d f).cycle = s.cycle := rfl
@[simp] theorem State.modRx_freeCtr (d : Fin 32) (f : RxSt → RxSt) : (s.modRx d f).freeCtr = s.freeCtr := rfl
@[simp] theorem State.modRx_regs (d : Fin 32) (f : RxSt → RxSt) : (s.modRx d f).regs = s.regs := rfl
@[simp] theorem State.modRx_shadow (d : Fin 32) (f : RxSt → RxSt) : (s.modRx d f).shadow = s.shadow := rfl
@[simp] theorem State.modRx_openPairs (d : Fin 32) (f : RxSt → RxSt) : (s.modRx d f).openPairs = s.openPairs := rfl
@[simp] theorem State.modRx_mem (d : Fin 32) (f : RxSt → RxSt) : (s.modRx d f).mem = s.mem := rfl
@[simp] theorem State.modRx_ecc (d : Fin 32) (f : RxSt → RxSt) : (s.modRx d f).ecc = s.ecc := rfl
@[simp] theorem State.modRx_pins (d : Fin 32) (f : RxSt → RxSt) : (s.modRx d f).pins = s.pins := rfl
@[simp] theorem State.modRx_sys (d : Fin 32) (f : RxSt → RxSt) : (s.modRx d f).sys = s.sys := rfl
@[simp] theorem State.modRx_clk (d : Fin 32) (f : RxSt → RxSt) : (s.modRx d f).clk = s.clk := rfl
@[simp] theorem State.modRx_time (d : Fin 32) (f : RxSt → RxSt) : (s.modRx d f).time = s.time := rfl
@[simp] theorem State.modRx_boot (d : Fin 32) (f : RxSt → RxSt) : (s.modRx d f).boot = s.boot := rfl
@[simp] theorem State.modRx_pwr (d : Fin 32) (f : RxSt → RxSt) : (s.modRx d f).pwr = s.pwr := rfl
@[simp] theorem State.modRx_log (d : Fin 32) (f : RxSt → RxSt) : (s.modRx d f).log = s.log := rfl
@[simp] theorem State.modRx_stk (d : Fin 32) (f : RxSt → RxSt) : (s.modRx d f).stk = s.stk := rfl
@[simp] theorem State.modRx_seq (d : Fin 32) (f : RxSt → RxSt) : (s.modRx d f).seq = s.seq := rfl
@[simp] theorem State.modRx_sns (d : Fin 32) (f : RxSt → RxSt) : (s.modRx d f).sns = s.sns := rfl
@[simp] theorem State.modRx_fbx (d : Fin 32) (f : RxSt → RxSt) : (s.modRx d f).fbx = s.fbx := rfl
@[simp] theorem State.modRx_phs (d : Fin 32) (f : RxSt → RxSt) : (s.modRx d f).phs = s.phs := rfl
@[simp] theorem State.modRx_emb (d : Fin 32) (f : RxSt → RxSt) : (s.modRx d f).emb = s.emb := rfl
@[simp] theorem State.modRx_thm (d : Fin 32) (f : RxSt → RxSt) : (s.modRx d f).thm = s.thm := rfl
@[simp] theorem State.modRx_bat (d : Fin 32) (f : RxSt → RxSt) : (s.modRx d f).bat = s.bat := rfl
@[simp] theorem State.modRx_nvm (d : Fin 32) (f : RxSt → RxSt) : (s.modRx d f).nvm = s.nvm := rfl
@[simp] theorem State.modRx_otp (d : Fin 32) (f : RxSt → RxSt) : (s.modRx d f).otp = s.otp := rfl
@[simp] theorem State.modRx_twi (d : Fin 32) (f : RxSt → RxSt) : (s.modRx d f).twi = s.twi := rfl
@[simp] theorem State.modRx_host (d : Fin 32) (f : RxSt → RxSt) : (s.modRx d f).host = s.host := rfl
@[simp] theorem State.modRx_spi (d : Fin 32) (f : RxSt → RxSt) : (s.modRx d f).spi = s.spi := rfl
@[simp] theorem State.modRx_link (d : Fin 32) (f : RxSt → RxSt) : (s.modRx d f).link = s.link := rfl
@[simp] theorem State.modRx_pr (d : Fin 32) (f : RxSt → RxSt) : (s.modRx d f).pr = s.pr := rfl
@[simp] theorem State.modRx_feat (d : Fin 32) (f : RxSt → RxSt) : (s.modRx d f).feat = s.feat := rfl

@[simp] theorem State.modMach_pending (j : Fin 64) (f : MachSt → MachSt) : (s.modMach j f).pending = s.pending := rfl
@[simp] theorem State.modMach_now (j : Fin 64) (f : MachSt → MachSt) : (s.modMach j f).now = s.now := rfl
@[simp] theorem State.modMach_cycle (j : Fin 64) (f : MachSt → MachSt) : (s.modMach j f).cycle = s.cycle := rfl
@[simp] theorem State.modMach_freeCtr (j : Fin 64) (f : MachSt → MachSt) : (s.modMach j f).freeCtr = s.freeCtr := rfl
@[simp] theorem State.modMach_regs (j : Fin 64) (f : MachSt → MachSt) : (s.modMach j f).regs = s.regs := rfl
@[simp] theorem State.modMach_shadow (j : Fin 64) (f : MachSt → MachSt) : (s.modMach j f).shadow = s.shadow := rfl
@[simp] theorem State.modMach_openPairs (j : Fin 64) (f : MachSt → MachSt) : (s.modMach j f).openPairs = s.openPairs := rfl
@[simp] theorem State.modMach_mem (j : Fin 64) (f : MachSt → MachSt) : (s.modMach j f).mem = s.mem := rfl
@[simp] theorem State.modMach_ecc (j : Fin 64) (f : MachSt → MachSt) : (s.modMach j f).ecc = s.ecc := rfl
@[simp] theorem State.modMach_pins (j : Fin 64) (f : MachSt → MachSt) : (s.modMach j f).pins = s.pins := rfl
@[simp] theorem State.modMach_sys (j : Fin 64) (f : MachSt → MachSt) : (s.modMach j f).sys = s.sys := rfl
@[simp] theorem State.modMach_clk (j : Fin 64) (f : MachSt → MachSt) : (s.modMach j f).clk = s.clk := rfl
@[simp] theorem State.modMach_time (j : Fin 64) (f : MachSt → MachSt) : (s.modMach j f).time = s.time := rfl
@[simp] theorem State.modMach_boot (j : Fin 64) (f : MachSt → MachSt) : (s.modMach j f).boot = s.boot := rfl
@[simp] theorem State.modMach_pwr (j : Fin 64) (f : MachSt → MachSt) : (s.modMach j f).pwr = s.pwr := rfl
@[simp] theorem State.modMach_log (j : Fin 64) (f : MachSt → MachSt) : (s.modMach j f).log = s.log := rfl
@[simp] theorem State.modMach_stk (j : Fin 64) (f : MachSt → MachSt) : (s.modMach j f).stk = s.stk := rfl
@[simp] theorem State.modMach_sns (j : Fin 64) (f : MachSt → MachSt) : (s.modMach j f).sns = s.sns := rfl
@[simp] theorem State.modMach_fbx (j : Fin 64) (f : MachSt → MachSt) : (s.modMach j f).fbx = s.fbx := rfl
@[simp] theorem State.modMach_phs (j : Fin 64) (f : MachSt → MachSt) : (s.modMach j f).phs = s.phs := rfl
@[simp] theorem State.modMach_dft (j : Fin 64) (f : MachSt → MachSt) : (s.modMach j f).dft = s.dft := rfl
@[simp] theorem State.modMach_emb (j : Fin 64) (f : MachSt → MachSt) : (s.modMach j f).emb = s.emb := rfl
@[simp] theorem State.modMach_thm (j : Fin 64) (f : MachSt → MachSt) : (s.modMach j f).thm = s.thm := rfl
@[simp] theorem State.modMach_bat (j : Fin 64) (f : MachSt → MachSt) : (s.modMach j f).bat = s.bat := rfl
@[simp] theorem State.modMach_nvm (j : Fin 64) (f : MachSt → MachSt) : (s.modMach j f).nvm = s.nvm := rfl
@[simp] theorem State.modMach_otp (j : Fin 64) (f : MachSt → MachSt) : (s.modMach j f).otp = s.otp := rfl
@[simp] theorem State.modMach_twi (j : Fin 64) (f : MachSt → MachSt) : (s.modMach j f).twi = s.twi := rfl
@[simp] theorem State.modMach_host (j : Fin 64) (f : MachSt → MachSt) : (s.modMach j f).host = s.host := rfl
@[simp] theorem State.modMach_spi (j : Fin 64) (f : MachSt → MachSt) : (s.modMach j f).spi = s.spi := rfl
@[simp] theorem State.modMach_link (j : Fin 64) (f : MachSt → MachSt) : (s.modMach j f).link = s.link := rfl
@[simp] theorem State.modMach_pr (j : Fin 64) (f : MachSt → MachSt) : (s.modMach j f).pr = s.pr := rfl
@[simp] theorem State.modMach_feat (j : Fin 64) (f : MachSt → MachSt) : (s.modMach j f).feat = s.feat := rfl

@[simp] theorem State.modTmr_pending (i : Fin 128) (f : TimerSt → TimerSt) : (s.modTmr i f).pending = s.pending := rfl
@[simp] theorem State.modTmr_now (i : Fin 128) (f : TimerSt → TimerSt) : (s.modTmr i f).now = s.now := rfl
@[simp] theorem State.modTmr_cycle (i : Fin 128) (f : TimerSt → TimerSt) : (s.modTmr i f).cycle = s.cycle := rfl
@[simp] theorem State.modTmr_freeCtr (i : Fin 128) (f : TimerSt → TimerSt) : (s.modTmr i f).freeCtr = s.freeCtr := rfl
@[simp] theorem State.modTmr_regs (i : Fin 128) (f : TimerSt → TimerSt) : (s.modTmr i f).regs = s.regs := rfl
@[simp] theorem State.modTmr_shadow (i : Fin 128) (f : TimerSt → TimerSt) : (s.modTmr i f).shadow = s.shadow := rfl
@[simp] theorem State.modTmr_openPairs (i : Fin 128) (f : TimerSt → TimerSt) : (s.modTmr i f).openPairs = s.openPairs := rfl
@[simp] theorem State.modTmr_mem (i : Fin 128) (f : TimerSt → TimerSt) : (s.modTmr i f).mem = s.mem := rfl
@[simp] theorem State.modTmr_ecc (i : Fin 128) (f : TimerSt → TimerSt) : (s.modTmr i f).ecc = s.ecc := rfl
@[simp] theorem State.modTmr_pins (i : Fin 128) (f : TimerSt → TimerSt) : (s.modTmr i f).pins = s.pins := rfl
@[simp] theorem State.modTmr_sys (i : Fin 128) (f : TimerSt → TimerSt) : (s.modTmr i f).sys = s.sys := rfl
@[simp] theorem State.modTmr_clk (i : Fin 128) (f : TimerSt → TimerSt) : (s.modTmr i f).clk = s.clk := rfl
@[simp] theorem State.modTmr_time (i : Fin 128) (f : TimerSt → TimerSt) : (s.modTmr i f).time = s.time := rfl
@[simp] theorem State.modTmr_boot (i : Fin 128) (f : TimerSt → TimerSt) : (s.modTmr i f).boot = s.boot := rfl
@[simp] theorem State.modTmr_pwr (i : Fin 128) (f : TimerSt → TimerSt) : (s.modTmr i f).pwr = s.pwr := rfl
@[simp] theorem State.modTmr_log (i : Fin 128) (f : TimerSt → TimerSt) : (s.modTmr i f).log = s.log := rfl
@[simp] theorem State.modTmr_stk (i : Fin 128) (f : TimerSt → TimerSt) : (s.modTmr i f).stk = s.stk := rfl
@[simp] theorem State.modTmr_sns (i : Fin 128) (f : TimerSt → TimerSt) : (s.modTmr i f).sns = s.sns := rfl
@[simp] theorem State.modTmr_fbx (i : Fin 128) (f : TimerSt → TimerSt) : (s.modTmr i f).fbx = s.fbx := rfl
@[simp] theorem State.modTmr_phs (i : Fin 128) (f : TimerSt → TimerSt) : (s.modTmr i f).phs = s.phs := rfl
@[simp] theorem State.modTmr_dft (i : Fin 128) (f : TimerSt → TimerSt) : (s.modTmr i f).dft = s.dft := rfl
@[simp] theorem State.modTmr_emb (i : Fin 128) (f : TimerSt → TimerSt) : (s.modTmr i f).emb = s.emb := rfl
@[simp] theorem State.modTmr_thm (i : Fin 128) (f : TimerSt → TimerSt) : (s.modTmr i f).thm = s.thm := rfl
@[simp] theorem State.modTmr_bat (i : Fin 128) (f : TimerSt → TimerSt) : (s.modTmr i f).bat = s.bat := rfl
@[simp] theorem State.modTmr_nvm (i : Fin 128) (f : TimerSt → TimerSt) : (s.modTmr i f).nvm = s.nvm := rfl
@[simp] theorem State.modTmr_otp (i : Fin 128) (f : TimerSt → TimerSt) : (s.modTmr i f).otp = s.otp := rfl
@[simp] theorem State.modTmr_twi (i : Fin 128) (f : TimerSt → TimerSt) : (s.modTmr i f).twi = s.twi := rfl
@[simp] theorem State.modTmr_host (i : Fin 128) (f : TimerSt → TimerSt) : (s.modTmr i f).host = s.host := rfl
@[simp] theorem State.modTmr_spi (i : Fin 128) (f : TimerSt → TimerSt) : (s.modTmr i f).spi = s.spi := rfl
@[simp] theorem State.modTmr_link (i : Fin 128) (f : TimerSt → TimerSt) : (s.modTmr i f).link = s.link := rfl
@[simp] theorem State.modTmr_pr (i : Fin 128) (f : TimerSt → TimerSt) : (s.modTmr i f).pr = s.pr := rfl
@[simp] theorem State.modTmr_feat (i : Fin 128) (f : TimerSt → TimerSt) : (s.modTmr i f).feat = s.feat := rfl

@[simp] theorem State.modAb_pending (i : Fin 16) (f : AbSt → AbSt) : (s.modAb i f).pending = s.pending := rfl
@[simp] theorem State.modAb_now (i : Fin 16) (f : AbSt → AbSt) : (s.modAb i f).now = s.now := rfl
@[simp] theorem State.modAb_cycle (i : Fin 16) (f : AbSt → AbSt) : (s.modAb i f).cycle = s.cycle := rfl
@[simp] theorem State.modAb_freeCtr (i : Fin 16) (f : AbSt → AbSt) : (s.modAb i f).freeCtr = s.freeCtr := rfl
@[simp] theorem State.modAb_regs (i : Fin 16) (f : AbSt → AbSt) : (s.modAb i f).regs = s.regs := rfl
@[simp] theorem State.modAb_shadow (i : Fin 16) (f : AbSt → AbSt) : (s.modAb i f).shadow = s.shadow := rfl
@[simp] theorem State.modAb_openPairs (i : Fin 16) (f : AbSt → AbSt) : (s.modAb i f).openPairs = s.openPairs := rfl
@[simp] theorem State.modAb_mem (i : Fin 16) (f : AbSt → AbSt) : (s.modAb i f).mem = s.mem := rfl
@[simp] theorem State.modAb_ecc (i : Fin 16) (f : AbSt → AbSt) : (s.modAb i f).ecc = s.ecc := rfl
@[simp] theorem State.modAb_pins (i : Fin 16) (f : AbSt → AbSt) : (s.modAb i f).pins = s.pins := rfl
@[simp] theorem State.modAb_sys (i : Fin 16) (f : AbSt → AbSt) : (s.modAb i f).sys = s.sys := rfl
@[simp] theorem State.modAb_clk (i : Fin 16) (f : AbSt → AbSt) : (s.modAb i f).clk = s.clk := rfl
@[simp] theorem State.modAb_time (i : Fin 16) (f : AbSt → AbSt) : (s.modAb i f).time = s.time := rfl
@[simp] theorem State.modAb_boot (i : Fin 16) (f : AbSt → AbSt) : (s.modAb i f).boot = s.boot := rfl
@[simp] theorem State.modAb_pwr (i : Fin 16) (f : AbSt → AbSt) : (s.modAb i f).pwr = s.pwr := rfl
@[simp] theorem State.modAb_log (i : Fin 16) (f : AbSt → AbSt) : (s.modAb i f).log = s.log := rfl
@[simp] theorem State.modAb_stk (i : Fin 16) (f : AbSt → AbSt) : (s.modAb i f).stk = s.stk := rfl
@[simp] theorem State.modAb_seq (i : Fin 16) (f : AbSt → AbSt) : (s.modAb i f).seq = s.seq := rfl
@[simp] theorem State.modAb_sns (i : Fin 16) (f : AbSt → AbSt) : (s.modAb i f).sns = s.sns := rfl
@[simp] theorem State.modAb_fbx (i : Fin 16) (f : AbSt → AbSt) : (s.modAb i f).fbx = s.fbx := rfl
@[simp] theorem State.modAb_phs (i : Fin 16) (f : AbSt → AbSt) : (s.modAb i f).phs = s.phs := rfl
@[simp] theorem State.modAb_dft (i : Fin 16) (f : AbSt → AbSt) : (s.modAb i f).dft = s.dft := rfl
@[simp] theorem State.modAb_emb (i : Fin 16) (f : AbSt → AbSt) : (s.modAb i f).emb = s.emb := rfl
@[simp] theorem State.modAb_thm (i : Fin 16) (f : AbSt → AbSt) : (s.modAb i f).thm = s.thm := rfl
@[simp] theorem State.modAb_bat (i : Fin 16) (f : AbSt → AbSt) : (s.modAb i f).bat = s.bat := rfl
@[simp] theorem State.modAb_otp (i : Fin 16) (f : AbSt → AbSt) : (s.modAb i f).otp = s.otp := rfl
@[simp] theorem State.modAb_twi (i : Fin 16) (f : AbSt → AbSt) : (s.modAb i f).twi = s.twi := rfl
@[simp] theorem State.modAb_host (i : Fin 16) (f : AbSt → AbSt) : (s.modAb i f).host = s.host := rfl
@[simp] theorem State.modAb_spi (i : Fin 16) (f : AbSt → AbSt) : (s.modAb i f).spi = s.spi := rfl
@[simp] theorem State.modAb_link (i : Fin 16) (f : AbSt → AbSt) : (s.modAb i f).link = s.link := rfl
@[simp] theorem State.modAb_pr (i : Fin 16) (f : AbSt → AbSt) : (s.modAb i f).pr = s.pr := rfl
@[simp] theorem State.modAb_feat (i : Fin 16) (f : AbSt → AbSt) : (s.modAb i f).feat = s.feat := rfl

@[simp] theorem State.spend_cycle (c : Nat) : (s.spend c).cycle = min 599 (s.cycle + c) := rfl
@[simp] theorem State.drawn_freeCtr : s.drawn.freeCtr = s.freeCtr + 1 := rfl
@[simp] theorem State.evp_evpend (b : Nat) : (s.evp b).stk.evpend = s.stk.evpend ||| (1 : BitVec 12) <<< b := rfl
@[simp] theorem State.evp_fLive (b : Nat) : (s.evp b).stk.fLive = s.stk.fLive := rfl
@[simp] theorem State.evp_safe (b : Nat) : (s.evp b).stk.safe = s.stk.safe := rfl
@[simp] theorem State.evp_wdogCnt (b : Nat) : (s.evp b).stk.wdogCnt = s.stk.wdogCnt := rfl
@[simp] theorem State.setWord_mem (a : Nat) (v : Word) : (s.setWord a v).mem = memPut s.mem a (wBytes v) := rfl
@[simp] theorem State.setBytes_mem (a : Nat) (v : List Byte) : (s.setBytes a v).mem = memPut s.mem a v := rfl
@[simp] theorem State.modPr_pr (f : PairSt → PairSt) : (s.modPr f).pr = f s.pr := rfl
@[simp] theorem State.modTime_time (f : TimeSt → TimeSt) : (s.modTime f).time = f s.time := rfl
@[simp] theorem State.setClk_clk (f : ClkSt → ClkSt) : (s.setClk f).clk = f s.clk := rfl
@[simp] theorem State.modHost_host (f : HostSt → HostSt) : (s.modHost f).host = f s.host := rfl
@[simp] theorem State.modTwi_twi (i : Fin 3) (f : TwiSt → TwiSt) : (s.modTwi i f).twi = upd s.twi i f := rfl
@[simp] theorem State.modTh_thF (f : ThreadSt → ThreadSt) : (s.modTh .F f).stk.thF = f s.stk.thF := rfl
@[simp] theorem State.modTh_thB (f : ThreadSt → ThreadSt) : (s.modTh .B f).stk.thB = f s.stk.thB := rfl
/-- The thread named has changed. -/
@[simp] theorem State.modTh_th (th : Thread) (f : ThreadSt → ThreadSt) : (s.modTh th f).th th = f (s.th th) := by cases th <;> rfl
/-- The other thread has not. -/
theorem State.modTh_other (th th' : Thread) (f : ThreadSt → ThreadSt) (h : th' ≠ th) : (s.modTh th f).th th' = s.th th' := by
  cases th <;> cases th' <;> first | rfl | exact absurd rfl h
@[simp] theorem State.spend_th (c : Nat) (th : Thread) : (s.spend c).th th = s.th th := by cases th <;> rfl
@[simp] theorem State.drawn_th (th : Thread) : s.drawn.th th = s.th th := by cases th <;> rfl
@[simp] theorem State.evp_th (b : Nat) (th : Thread) : (s.evp b).th th = s.th th := by cases th <;> rfl

/-! ### General registers (R63) -/

@[simp] theorem ThreadSt.reg_zero (t : ThreadSt) : t.reg 0 = 0 := rfl
@[simp] theorem ThreadSt.setReg_zero (t : ThreadSt) (v : Word) : t.setReg 0 v = t := rfl
@[simp] theorem ThreadSt.setReg_pc (t : ThreadSt) (r : Reg) (v : Word) : (t.setReg r v).pc = t.pc := by unfold ThreadSt.setReg; split <;> rfl
@[simp] theorem ThreadSt.setReg_fstat (t : ThreadSt) (r : Reg) (v : Word) : (t.setReg r v).fstat = t.fstat := by
  unfold ThreadSt.setReg; split <;> rfl
@[simp] theorem ThreadSt.setReg_f (t : ThreadSt) (r : Reg) (v : Word) : (t.setReg r v).f = t.f := by unfold ThreadSt.setReg; split <;> rfl
theorem ThreadSt.reg_setReg (t : ThreadSt) (r : Reg) (v : Word) (h : r ≠ 0) : (t.setReg r v).reg r = v := by
  unfold ThreadSt.reg ThreadSt.setReg
  rw [if_neg h, if_neg h]
  simp
theorem ThreadSt.reg_setReg_ne (t : ThreadSt) (r q : Reg) (v : Word) (h : q ≠ r) : (t.setReg r v).reg q = t.reg q := by
  have h' : ¬ r.toNat = q.toNat := fun e => h (BitVec.eq_of_toNat_eq e.symm)
  unfold ThreadSt.reg ThreadSt.setReg
  by_cases h0 : r = 0
  · rw [if_pos h0]
  · rw [if_neg h0]
    simp [h']

end Sys2Proof.Machine
end

