-- ==== Sys2Proof/Laws/Memory.lean ====
section
/-! SUPPORT. Sparse maps and memory: canonical form, reading back what was written, leaving the rest alone. -/

namespace Sys2Proof.Machine

/-! ### Canonical form -/

/-- The first key of a map is above `a`. -/
def headAbove {α : Type} (a : Nat) : List (Nat × α) → Bool
  | [] => true
  | (b, _) :: _ => decide (a < b)

theorem sparseWf_cons {α : Type} (ok : Nat → α → Bool) (a : Nat) (v : α) (m : List (Nat × α)) :
    sparseWf ok ((a, v) :: m) = (ok a v && headAbove a m && sparseWf ok m) := by
  cases m <;> rfl

theorem headAbove_sput {α : Type} (k : Nat) (m : List (Nat × α)) (a : Nat) (o : Option α) (h : headAbove k m = true) (ha : k < a)
    (hw : ∀ b v, (b, v) ∈ m → k < b) : headAbove k (sput m a o) = true := by
  cases m with
  | nil => cases o <;> simp [sput, headAbove, ha]
  | cons p m =>
    obtain ⟨b, x⟩ := p
    have hb : k < b := by simpa [headAbove] using h
    unfold sput
    split
    · cases o with
      | some v => simp [headAbove, ha]
      | none =>
        cases m with
        | nil => rfl
        | cons q m => obtain ⟨c, y⟩ := q; simp only [headAbove, decide_eq_true_eq]; exact hw c y (by simp)
    · split
      · cases o <;> simp [headAbove, ha, hb]
      · simp [headAbove, hb]

/-- Keys of a canonical map lie above what lies below its first key. -/
theorem sparseWf_above {α : Type} (ok : Nat → α → Bool) (m : List (Nat × α)) (k : Nat) (hw : sparseWf ok m = true)
    (hk : headAbove k m = true) : ∀ b v, (b, v) ∈ m → k < b := by
  induction m generalizing k with
  | nil => intro b v h; cases h
  | cons p m ih =>
    obtain ⟨a, x⟩ := p
    rw [sparseWf_cons] at hw
    simp only [Bool.and_eq_true] at hw
    have ha : k < a := by simpa [headAbove] using hk
    intro b v h
    cases h with
    | head => exact ha
    | tail _ h => exact Nat.lt_trans ha (ih a hw.2 hw.1.2 b v h)

/-- An update of a canonical map is canonical. -/
theorem sparseWf_sput {α : Type} (ok : Nat → α → Bool) (m : List (Nat × α)) (a : Nat) (o : Option α)
    (ho : ∀ v, o = some v → ok a v = true) (hw : sparseWf ok m = true) : sparseWf ok (sput m a o) = true := by
  induction m with
  | nil =>
    cases o with
    | none => rfl
    | some v => simp [sput, sparseWf, ho v rfl]
  | cons p m ih =>
    obtain ⟨b, x⟩ := p
    have hw' := hw
    rw [sparseWf_cons] at hw'
    simp only [Bool.and_eq_true] at hw'
    obtain ⟨⟨hx, hh⟩, hm⟩ := hw'
    unfold sput
    by_cases h : b = a
    · subst h
      cases o with
      | some v => simp only [if_true, sparseWf_cons, ho v rfl, hh, hm, Bool.and_self]
      | none => simpa using hm
    · by_cases h2 : a < b
      · cases o with
        | some v => simp only [if_neg h, if_pos h2]; rw [sparseWf_cons, ho v rfl, hw]; simp [headAbove, h2]
        | none => simpa [h, h2] using hw
      · simp only [if_neg h, if_neg h2]
        rw [sparseWf_cons, hx, ih hm, headAbove_sput b m a o hh (by omega) (sparseWf_above ok m b hm hh)]
        rfl

/-- Keeping some of the entries of a canonical map keeps it canonical. -/
theorem sparseWf_filter {α : Type} (ok : Nat → α → Bool) (f : Nat × α → Bool) (m : List (Nat × α)) (hw : sparseWf ok m = true) :
    sparseWf ok (m.filter f) = true ∧ ∀ k, headAbove k m = true → headAbove k (m.filter f) = true := by
  induction m with
  | nil => exact ⟨rfl, fun _ _ => rfl⟩
  | cons p m ih =>
    obtain ⟨a, x⟩ := p
    rw [sparseWf_cons] at hw
    simp only [Bool.and_eq_true] at hw
    obtain ⟨⟨hx, hh⟩, hm⟩ := hw
    obtain ⟨i1, i2⟩ := ih hm
    by_cases h : f (a, x) = true
    · rw [List.filter_cons_of_pos h]
      refine ⟨?_, fun k hk => ?_⟩
      · rw [sparseWf_cons, hx, i1, i2 a hh]; rfl
      · simpa [headAbove] using hk
    · rw [List.filter_cons_of_neg h]
      refine ⟨i1, fun k hk => i2 k ?_⟩
      have hka : k < a := by simpa [headAbove] using hk
      cases m with
      | nil => rfl
      | cons q m =>
        obtain ⟨c, y⟩ := q
        have : a < c := by simpa [headAbove] using hh
        simp only [headAbove, decide_eq_true_eq]
        omega

/-! ### Every operation over memory keeps the canonical form -/

theorem memSet_wf (m : List Host.Cell) (a : Nat) (v : Byte) (h : Memory.wf m = true) : Memory.wf (memSet m a v) = true := by
  refine sparseWf_sput _ m a _ ?_ h
  intro w hw
  split at hw
  · cases hw
  · cases hw; simpa using ‹¬ v = 0›

theorem memPut_wf (m : List Host.Cell) (a : Nat) (bs : List Byte) (h : Memory.wf m = true) : Memory.wf (memPut m a bs) = true := by
  induction bs generalizing m a with
  | nil => exact h
  | cons b bs ih => exact ih _ _ (memSet_wf m a b h)

theorem State.setWord_wf (s : State) (a : Nat) (v : Word) (h : Memory.wf s.mem = true) : Memory.wf (s.setWord a v).mem = true :=
  memPut_wf _ _ _ h
theorem State.setBytes_wf (s : State) (a : Nat) (bs : List Byte) (h : Memory.wf s.mem = true) : Memory.wf (s.setBytes a bs).mem = true :=
  memPut_wf _ _ _ h
theorem mem_filter_wf (m : List Host.Cell) (f : Host.Cell → Bool) (h : Memory.wf m = true) : Memory.wf (m.filter f) = true :=
  (sparseWf_filter _ f m h).1

/-- A register write keeps the register file canonical. -/
theorem State.setReg_wf (s : State) (a : Nat) (v : Word) (h : Regs.wf s.regs = true) : Regs.wf (s.setReg a v).regs = true := by
  refine sparseWf_sput _ _ _ _ ?_ h
  intro w hw
  by_cases hv : v = (if isDesc a then 0 else (baseInfo a).reset)
  · rw [if_pos hv] at hw; cases hw
  · rw [if_neg hv] at hw; cases hw; exact bne_iff_ne.2 hv

/-! ### Reading back -/

theorem sget_sput {α : Type} (ok : Nat → α → Bool) (m : List (Nat × α)) (a b : Nat) (o : Option α) (hw : sparseWf ok m = true) :
    sget (sput m a o) b = if b = a then o else sget m b := by
  induction m with
  | nil =>
    cases o with
    | none => by_cases h : b = a <;> simp [sput, sget, h]
    | some v =>
      by_cases h : b = a
      · simp [sput, sget, h]
      · have : ¬ a = b := fun e => h e.symm
        simp [sput, sget, h, this]
  | cons p m ih =>
    obtain ⟨k, x⟩ := p
    have hw' := hw
    rw [sparseWf_cons] at hw'
    simp only [Bool.and_eq_true] at hw'
    obtain ⟨⟨hx, hh⟩, hm⟩ := hw'
    have habove := sparseWf_above ok m k hm hh
    have hnone : ∀ c, c ≤ k → sget m c = none := by
      intro c hc
      cases m with
      | nil => rfl
      | cons q m =>
        obtain ⟨d, y⟩ := q
        have : k < d := by simpa [headAbove] using hh
        have h1 : ¬ d = c := by omega
        have h2 : c < d := by omega
        simp [sget, h1, h2]
    unfold sput
    by_cases h : k = a
    · subst h
      cases o with
      | some v =>
        by_cases hb : b = k
        · simp [sget, hb]
        · have : ¬ k = b := fun e => hb e.symm
          simp [sget, hb, this]
      | none =>
        by_cases hb : b = k
        · simp [hb, hnone k (Nat.le_refl k)]
        · have hkb : ¬ k = b := fun e => hb e.symm
          by_cases hlt : b < k
          · simp [sget, hb, hkb, hlt, hnone b (by omega)]
          · simp [sget, hb, hkb, hlt]
    · by_cases h2 : a < k
      · cases o with
        | some v =>
          by_cases hb : b = a
          · simp [h, h2, sget, hb]
          · have hab : ¬ a = b := fun e => hb e.symm
            by_cases hlt : b < a
            · have hk : ¬ k = b := by omega
              have hk2 : b < k := by omega
              simp [h, h2, sget, hb, hab, hlt, hk, hk2]
            · simp [h, h2, sget, hb, hab, hlt]
        | none =>
          by_cases hb : b = a
          · simp [h, h2, sget, hb]
          · simp [h, h2, hb]
      · by_cases hb : b = a
        · subst hb
          simp [h, h2, sget, ih hm]
        · by_cases hk : k = b
          · subst hk
            simp [h, h2, sget]
          · by_cases hlt : b < k
            · simp [h, h2, sget, hk, hlt, hb]
            · simp [h, h2, sget, hk, hlt, hb, ih hm]

/-- A byte of memory reads as it was written last; other bytes are as they were. -/
theorem memSet_byte (s : State) (m : List Host.Cell) (a b : Nat) (v : Byte) (h : Memory.wf m = true) :
    State.byte { s with mem := memSet m a v } b = if b = a then v else State.byte { s with mem := m } b := by
  unfold State.byte memSet
  simp only [sget_sput _ m a b _ h]
  by_cases hb : b = a
  · simp only [hb, if_true]
    split
    · simpa using Eq.symm ‹v = 0›
    · rfl
  · simp only [hb, if_false]

/-- Bytes outside those stored are as they were. -/
theorem memPut_frame (s : State) (m : List Host.Cell) (a b : Nat) (bs : List Byte) (h : Memory.wf m = true)
    (hb : b < a ∨ a + bs.length ≤ b) : State.byte { s with mem := memPut m a bs } b = State.byte { s with mem := m } b := by
  induction bs generalizing m a with
  | nil => rfl
  | cons v bs ih =>
    simp only [List.length_cons] at hb
    rw [memPut, ih _ _ (memSet_wf m a v h) (by omega), memSet_byte s m a b v h, if_neg (by omega)]

/-- The stored bytes read back. -/
theorem memPut_byte (s : State) (m : List Host.Cell) (a i : Nat) (bs : List Byte) (h : Memory.wf m = true) (hi : i < bs.length) :
    State.byte { s with mem := memPut m a bs } (a + i) = bs[i] := by
  induction bs generalizing m a i with
  | nil => simp at hi
  | cons v bs ih =>
    cases i with
    | zero =>
      have e : ({ s with mem := memPut (memSet m a v) (a + 1) bs } : State).byte a = State.byte { s with mem := memSet m a v } a :=
        memPut_frame s _ _ _ _ (memSet_wf m a v h) (by omega)
      simp only [memPut, Nat.add_zero, List.getElem_cons_zero]
      rw [e, memSet_byte s m a a v h, if_pos rfl]
    | succ i =>
      have hi' : i < bs.length := by simpa using hi
      have := ih (memSet m a v) (a + 1) i (memSet_wf m a v h) hi'
      simp only [memPut, List.getElem_cons_succ]
      rw [← this]
      congr 1
      omega

/-- Memory as read depends on the memory alone. -/
theorem State.byte_congr (s t : State) (h : s.mem = t.mem) (a : Nat) : s.byte a = t.byte a := by unfold State.byte; rw [h]
theorem State.word_congr (s t : State) (h : s.mem = t.mem) (a : Nat) : s.word a = t.word a := by
  unfold State.word State.byte; rw [h]

/-- Bytes outside a word that is stored are as they were. -/
theorem State.setWord_frame (s : State) (a b : Nat) (v : Word) (h : Memory.wf s.mem = true) (hb : b < a ∨ a + 4 ≤ b) :
    (s.setWord a v).byte b = s.byte b := memPut_frame s s.mem a b (wBytes v) h hb

/-- A register reads as it was written last; other registers are as they were. -/
theorem State.setReg_reg (s : State) (a b : Nat) (v : Word) (h : Regs.wf s.regs = true) :
    (s.setReg a v).reg b = if b = a then v else s.reg b := by
  unfold State.reg State.setReg
  simp only [sget_sput _ s.regs a b _ h]
  by_cases hb : b = a
  · subst hb
    by_cases hv : v = (if isDesc b then 0 else (baseInfo b).reset)
    · rw [if_pos hv, if_pos rfl, if_pos rfl]; exact hv.symm
    · rw [if_neg hv, if_pos rfl, if_pos rfl]; rfl
  · simp only [hb, if_false]

end Sys2Proof.Machine
end

