-- ==== Sys2Proof/Laws/Log.lean ====
section
/-! SUPPORT. Staging of the records of a cycle: it changes the recorder alone, and leaves no record posted. -/

namespace Sys2Proof.Machine

theorem State.stage_log (s : State) (p : Posted) : (s.stage p).1 = { s with log := (s.stage p).1.log } := by
  unfold State.stage
  split <;> rfl

/-- A record's admission changes the recorder alone. -/
theorem State.offerRec_log (s : State) (p : Posted) : (s.offerRec p).1 = { s with log := (s.offerRec p).1.log } := by
  unfold State.offerRec
  split
  · rfl
  · split
    · exact State.stage_log s p
    · split
      · exact State.stage_log s p
      · dsimp only
        split
        · exact (State.stage_log _ p).trans rfl
        · rfl

/-- A record's admission posts nothing. -/
theorem stageOne_posted (cfg : Word) (p : Posted) (pl : List Word) (l m : LogSt) (h : stageOne cfg p pl l = some m) : m.posted = l.posted := by
  unfold stageOne at h
  dsimp only at h
  repeat' (split at h)
  all_goals first | (cases h; rfl) | cases h

theorem stageAll_posted (cfg : Word) (p : Posted) (ps : List (List Word)) (l m : LogSt) (h : stageAll cfg p ps l = some m) :
    m.posted = l.posted := by
  induction ps generalizing l with
  | nil => cases h; rfl
  | cons pl ps ih =>
    unfold stageAll at h
    cases h1 : stageOne cfg p pl l with
    | none => rw [h1] at h; cases h
    | some k => rw [h1] at h; rw [ih k h, stageOne_posted cfg p pl l k h1]

theorem closeWin_posted (l : LogSt) (i : Fin 64) (c : BitVec 12) (d : Nat) : (closeWin l i c d).posted = l.posted := by
  unfold closeWin; dsimp only; split <;> rfl

theorem State.stage_posted (s : State) (p : Posted) : (s.stage p).1.log.posted = s.log.posted := by
  unfold State.stage
  split
  · exact stageAll_posted _ _ _ _ _ ‹_›
  · rfl

theorem State.openWin_posted (s : State) (i : Fin 64) : (s.openWin i).posted = s.log.posted := by
  have h : ∀ l : LogSt, l.posted = s.log.posted → ∀ w : RateWin,
      (if l.win[i].isOpen then l else { l with win := l.win.set i w }).posted = s.log.posted := by
    intro l hl w
    split <;> exact hl
  unfold State.openWin
  dsimp only
  apply h
  split
  · exact closeWin_posted _ _ _ _
  · rfl

theorem State.offerRec_posted (s : State) (p : Posted) : (s.offerRec p).1.log.posted = s.log.posted := by
  unfold State.offerRec
  split
  · rfl
  · split
    · exact State.stage_posted s p
    · split
      · exact State.stage_posted s p
      · dsimp only
        split
        · exact (State.stage_posted _ p).trans (State.openWin_posted s _)
        · exact State.openWin_posted s _

/-- The records of one cycle change the recorder alone. -/
theorem State.stageGroup_log (s : State) (ps : List Posted) : s.stageGroup ps = { s with log := (s.stageGroup ps).log } := by
  have key : ∀ (ps : List Posted) (u : State), (ps.foldl (fun s p => (s.offerRec p).1) u) = { u with log := (ps.foldl (fun s p => (s.offerRec p).1) u).log } := by
    intro ps
    induction ps with
    | nil => intro u; rfl
    | cons p ps ih =>
      intro u
      simp only [List.foldl_cons]
      have h1 := ih (u.offerRec p).1
      have h2 := State.offerRec_log u p
      rw [h1]
      generalize (List.foldl (fun s p => (s.offerRec p).1) (u.offerRec p).1 ps).log = l at *
      rw [h2]
  exact key _ s

/-- The records of one cycle post nothing. -/
theorem State.stageGroup_posted (s : State) (ps : List Posted) : (s.stageGroup ps).log.posted = s.log.posted := by
  have key : ∀ (ps : List Posted) (u : State), (ps.foldl (fun s p => (s.offerRec p).1) u).log.posted = u.log.posted := by
    intro ps
    induction ps with
    | nil => intro u; rfl
    | cons p ps ih => intro u; simp only [List.foldl_cons]; rw [ih, State.offerRec_posted]
  exact key _ s

/-- Staging the records of an earlier cycle changes the recorder alone. -/
theorem State.past_log (s : State) : s.past = { s with log := s.past.log } := by
  unfold State.past
  split
  · rfl
  · split
    · rfl
    · rw [State.stageGroup_log]

/-- Staging the records of an earlier cycle leaves what has been posted since. -/
@[simp] theorem State.past_posted (s : State) : s.past.log.posted = s.log.posted := by
  unfold State.past
  split
  · rfl
  · split
    · rfl
    · rw [State.stageGroup_posted]

/-- With no record held nothing is past. -/
theorem State.past_nil (s : State) (hh : s.log.held = []) : s.past = s := by
  unfold State.past; rw [hh]; split <;> rfl

/-- Staging changes the recorder alone. -/
theorem State.flush_log (s : State) : s.flush = { s with log := s.flush.log } := by
  unfold State.flush
  dsimp only
  split
  · exact State.past_log s
  · rw [State.stageGroup_log, State.past_log s]

/-- No record stays posted. -/
@[simp] theorem State.flush_posted (s : State) : s.flush.log.posted = [] := by
  unfold State.flush
  dsimp only
  split
  · exact (List.append_eq_nil_iff.mp ‹_›).2
  · rw [State.stageGroup_posted]

/-- With no record posted or held there is nothing to stage. -/
theorem State.flush_nil (s : State) (h : s.log.posted = []) (hh : s.log.held = []) : s.flush = s := by
  unfold State.flush; dsimp only; rw [State.past_nil s hh, h, hh]; rfl

/-- The end of a row changes the recorder alone. -/
theorem State.settle_log (s : State) : s.settle = { s with log := s.settle.log } := by
  unfold State.settle
  dsimp only
  split
  · exact State.past_log s
  · rw [State.past_log s]

/-- No record stays posted after a row. -/
@[simp] theorem State.settle_posted (s : State) : s.settle.log.posted = [] := by
  unfold State.settle
  dsimp only
  split
  · assumption
  · rfl

/-- A row that posts no record, with none held, ends as it is. -/
theorem State.settle_nil (s : State) (h : s.log.posted = []) (hh : s.log.held = []) : s.settle = s := by
  unfold State.settle; dsimp only; rw [State.past_nil s hh, h]

theorem finish_nil (s : State) (h : s.log.posted = []) (hh : s.log.held = []) : finish s = .next s := by
  unfold finish; rw [State.settle_nil s h hh]

@[simp] theorem State.flush_pending (s : State) : s.flush.pending = s.pending := by rw [State.flush_log]
@[simp] theorem State.flush_now (s : State) : s.flush.now = s.now := by rw [State.flush_log]
@[simp] theorem State.flush_cycle (s : State) : s.flush.cycle = s.cycle := by rw [State.flush_log]
@[simp] theorem State.flush_freeCtr (s : State) : s.flush.freeCtr = s.freeCtr := by rw [State.flush_log]
@[simp] theorem State.flush_regs (s : State) : s.flush.regs = s.regs := by rw [State.flush_log]
@[simp] theorem State.flush_shadow (s : State) : s.flush.shadow = s.shadow := by rw [State.flush_log]
@[simp] theorem State.flush_openPairs (s : State) : s.flush.openPairs = s.openPairs := by rw [State.flush_log]
@[simp] theorem State.flush_mem (s : State) : s.flush.mem = s.mem := by rw [State.flush_log]
@[simp] theorem State.flush_ecc (s : State) : s.flush.ecc = s.ecc := by rw [State.flush_log]
@[simp] theorem State.flush_pins (s : State) : s.flush.pins = s.pins := by rw [State.flush_log]
@[simp] theorem State.flush_sys (s : State) : s.flush.sys = s.sys := by rw [State.flush_log]
@[simp] theorem State.flush_clk (s : State) : s.flush.clk = s.clk := by rw [State.flush_log]
@[simp] theorem State.flush_time (s : State) : s.flush.time = s.time := by rw [State.flush_log]
@[simp] theorem State.flush_boot (s : State) : s.flush.boot = s.boot := by rw [State.flush_log]
@[simp] theorem State.flush_pwr (s : State) : s.flush.pwr = s.pwr := by rw [State.flush_log]
@[simp] theorem State.flush_stk (s : State) : s.flush.stk = s.stk := by rw [State.flush_log]
@[simp] theorem State.flush_seq (s : State) : s.flush.seq = s.seq := by rw [State.flush_log]
@[simp] theorem State.flush_sns (s : State) : s.flush.sns = s.sns := by rw [State.flush_log]
@[simp] theorem State.flush_fbx (s : State) : s.flush.fbx = s.fbx := by rw [State.flush_log]
@[simp] theorem State.flush_phs (s : State) : s.flush.phs = s.phs := by rw [State.flush_log]
@[simp] theorem State.flush_dft (s : State) : s.flush.dft = s.dft := by rw [State.flush_log]
@[simp] theorem State.flush_emb (s : State) : s.flush.emb = s.emb := by rw [State.flush_log]
@[simp] theorem State.flush_thm (s : State) : s.flush.thm = s.thm := by rw [State.flush_log]
@[simp] theorem State.flush_bat (s : State) : s.flush.bat = s.bat := by rw [State.flush_log]
@[simp] theorem State.flush_nvm (s : State) : s.flush.nvm = s.nvm := by rw [State.flush_log]
@[simp] theorem State.flush_otp (s : State) : s.flush.otp = s.otp := by rw [State.flush_log]
@[simp] theorem State.flush_twi (s : State) : s.flush.twi = s.twi := by rw [State.flush_log]
@[simp] theorem State.flush_host (s : State) : s.flush.host = s.host := by rw [State.flush_log]
@[simp] theorem State.flush_spi (s : State) : s.flush.spi = s.spi := by rw [State.flush_log]
@[simp] theorem State.flush_link (s : State) : s.flush.link = s.link := by rw [State.flush_log]
@[simp] theorem State.flush_pr (s : State) : s.flush.pr = s.pr := by rw [State.flush_log]
@[simp] theorem State.flush_feat (s : State) : s.flush.feat = s.feat := by rw [State.flush_log]
@[simp] theorem State.settle_pending (s : State) : s.settle.pending = s.pending := by rw [State.settle_log]
@[simp] theorem State.settle_now (s : State) : s.settle.now = s.now := by rw [State.settle_log]
@[simp] theorem State.settle_cycle (s : State) : s.settle.cycle = s.cycle := by rw [State.settle_log]
@[simp] theorem State.settle_freeCtr (s : State) : s.settle.freeCtr = s.freeCtr := by rw [State.settle_log]
@[simp] theorem State.settle_regs (s : State) : s.settle.regs = s.regs := by rw [State.settle_log]
@[simp] theorem State.settle_shadow (s : State) : s.settle.shadow = s.shadow := by rw [State.settle_log]
@[simp] theorem State.settle_openPairs (s : State) : s.settle.openPairs = s.openPairs := by rw [State.settle_log]
@[simp] theorem State.settle_mem (s : State) : s.settle.mem = s.mem := by rw [State.settle_log]
@[simp] theorem State.settle_ecc (s : State) : s.settle.ecc = s.ecc := by rw [State.settle_log]
@[simp] theorem State.settle_pins (s : State) : s.settle.pins = s.pins := by rw [State.settle_log]
@[simp] theorem State.settle_sys (s : State) : s.settle.sys = s.sys := by rw [State.settle_log]
@[simp] theorem State.settle_clk (s : State) : s.settle.clk = s.clk := by rw [State.settle_log]
@[simp] theorem State.settle_time (s : State) : s.settle.time = s.time := by rw [State.settle_log]
@[simp] theorem State.settle_boot (s : State) : s.settle.boot = s.boot := by rw [State.settle_log]
@[simp] theorem State.settle_pwr (s : State) : s.settle.pwr = s.pwr := by rw [State.settle_log]
@[simp] theorem State.settle_stk (s : State) : s.settle.stk = s.stk := by rw [State.settle_log]
@[simp] theorem State.settle_seq (s : State) : s.settle.seq = s.seq := by rw [State.settle_log]
@[simp] theorem State.settle_sns (s : State) : s.settle.sns = s.sns := by rw [State.settle_log]
@[simp] theorem State.settle_fbx (s : State) : s.settle.fbx = s.fbx := by rw [State.settle_log]
@[simp] theorem State.settle_phs (s : State) : s.settle.phs = s.phs := by rw [State.settle_log]
@[simp] theorem State.settle_dft (s : State) : s.settle.dft = s.dft := by rw [State.settle_log]
@[simp] theorem State.settle_emb (s : State) : s.settle.emb = s.emb := by rw [State.settle_log]
@[simp] theorem State.settle_thm (s : State) : s.settle.thm = s.thm := by rw [State.settle_log]
@[simp] theorem State.settle_bat (s : State) : s.settle.bat = s.bat := by rw [State.settle_log]
@[simp] theorem State.settle_nvm (s : State) : s.settle.nvm = s.nvm := by rw [State.settle_log]
@[simp] theorem State.settle_otp (s : State) : s.settle.otp = s.otp := by rw [State.settle_log]
@[simp] theorem State.settle_twi (s : State) : s.settle.twi = s.twi := by rw [State.settle_log]
@[simp] theorem State.settle_host (s : State) : s.settle.host = s.host := by rw [State.settle_log]
@[simp] theorem State.settle_spi (s : State) : s.settle.spi = s.spi := by rw [State.settle_log]
@[simp] theorem State.settle_link (s : State) : s.settle.link = s.link := by rw [State.settle_log]
@[simp] theorem State.settle_pr (s : State) : s.settle.pr = s.pr := by rw [State.settle_log]
@[simp] theorem State.settle_feat (s : State) : s.settle.feat = s.feat := by rw [State.settle_log]

@[simp] theorem State.flush_th (s : State) (th : Thread) : s.flush.th th = s.th th := by cases th <;> simp [State.th]
@[simp] theorem State.flush_byte (s : State) (a : Nat) : s.flush.byte a = s.byte a := State.byte_congr _ _ (State.flush_mem s) a
@[simp] theorem State.flush_reg (s : State) (a : Nat) : s.flush.reg a = s.reg a := by unfold State.reg; rw [State.flush_regs]

@[simp] theorem State.settle_th (s : State) (th : Thread) : s.settle.th th = s.th th := by cases th <;> simp [State.th]
@[simp] theorem State.settle_byte (s : State) (a : Nat) : s.settle.byte a = s.byte a := State.byte_congr _ _ (State.settle_mem s) a
@[simp] theorem State.settle_reg (s : State) (a : Nat) : s.settle.reg a = s.reg a := by unfold State.reg; rw [State.settle_regs]

end Sys2Proof.Machine
end

