-- ==== Sys2Proof/Laws/Stoker.lean ====
section
/-! SUPPORT. What one instruction of a thread comes to: nothing, a trap, or its effect with the next program counter. -/

namespace Sys2Proof.Machine

/-- A word that holds no error is read as it is. -/
theorem State.eccRead_clean (s : State) (a : Nat) (who : Word) (h : sget s.ecc (a - a % 4) = none) : s.eccRead a who = (s, false) := by
  unfold State.eccRead; rw [h]

/-- An instruction that does not run changes nothing. -/
theorem State.insn_idle (s : State) (th : Thread) (c : Nat) (f : State → InsOut) (h : s.canRun th c = false) : s.insn th c f = s := by
  unfold State.insn; rw [h]; rfl

/-- With no hard stop due, cycle 540 leaves nothing to do. -/
theorem State.due540_none (s : State) (h : (s.stk.hardDue && decide (540 ≤ s.cycle)) = false) : s.due540 = s := by
  unfold State.due540
  split
  · rename_i hc
    unfold State.hardStop
    rw [if_neg]
    intro hd
    simp [hd, hc] at h
  · rfl

/-- An instruction that runs, its word read without error, ends as its effect says. -/
theorem State.insn_ready (s : State) (th : Thread) (c : Nat) (f : State → InsOut) (h : s.Ready th c) :
    s.insn th c f = s.ended th c (f s) := by
  unfold State.insn State.fetched
  rw [if_pos h.1.1, State.due540_none s h.1.2, State.eccRead_clean _ _ _ h.2.1]
  rfl

/-- An instruction whose access waits changes nothing. -/
theorem State.insn_hold (s : State) (th : Thread) (c : Nat) (f : State → InsOut) (h : s.Ready th c) (hh : (f s).hold = true) :
    s.insn th c f = s := by
  rw [State.insn_ready s th c f h]; unfold State.ended; rw [if_pos hh]

/-- An instruction that traps. -/
theorem State.insn_trap (s : State) (th : Thread) (c : Nat) (f : State → InsOut) (h : s.Ready th c) (cause : Nat) (v : Word)
    (h2 : s.canRun th 2 = true) (hh : (f s).hold = false) (ht : (f s).trap = some (cause, v)) :
    s.insn th c f = (f s).s.trapEntry th cause v := by
  rw [State.insn_ready s th c f h]; unfold State.ended; rw [hh, ht]; simp [h2]

/-- A trap whose entry would not end in the thread's time is not taken. -/
theorem State.insn_late (s : State) (th : Thread) (c : Nat) (f : State → InsOut) (h : s.Ready th c) (cause : Nat) (v : Word)
    (h2 : s.canRun th 2 = false) (hh : (f s).hold = false) (ht : (f s).trap = some (cause, v)) : s.insn th c f = s := by
  rw [State.insn_ready s th c f h]; unfold State.ended; rw [hh, ht]; simp [h2]

/-- An instruction that has its effect. -/
theorem State.insn_ends (s : State) (th : Thread) (c : Nat) (f : State → InsOut) (h : s.Ready th c)
    (hh : (f s).hold = false) (ht : (f s).trap = none) :
    s.insn th c f = ((f s).s.modTh th fun t => { t with pc := (f s).pc.getD (t.pc + 4) }).spend c := by
  rw [State.insn_ready s th c f h]; unfold State.ended; rw [hh, ht]; rfl

/-- An instruction that changes its thread's registers alone. -/
theorem State.alu_ready (s : State) (th : Thread) (c : Nat) (f : ThreadSt → ThreadSt) (h : s.Ready th c) :
    s.alu th c f = (s.modTh th f).done th c := by
  unfold State.alu
  rw [State.insn_ends s th c _ h rfl rfl]
  rfl

/-- A result in rd. -/
theorem State.ret_ready (s : State) (th : Thread) (c : Nat) (f : State → InsOut) (u : State) (rd : Reg) (v : Word) (h : s.Ready th c)
    (hf : f s = u.ret th rd v) : s.insn th c f = (u.setGr th rd v).done th c := by
  rw [State.insn_ends s th c f h (by rw [hf]; rfl) (by rw [hf]; rfl), hf]
  rfl

/-- A word that is fetched with an uncorrectable error traps with cause 0x08 (R81). -/
theorem State.insn_badFetch (s : State) (th : Thread) (c : Nat) (f : State → InsOut) (hr : s.canRun th c = true)
    (h2 : s.canRun th 2 = true) (hd : (s.stk.hardDue && decide (540 ≤ s.cycle)) = false)
    (he : (s.eccRead (s.th th).pc.toNat (iniWord (iniTh th))).2 = true) :
    s.insn th c f = (s.eccRead (s.th th).pc.toNat (iniWord (iniTh th))).1.trapEntry th 0x08 (s.th th).pc := by
  unfold State.insn
  rw [if_pos hr, State.due540_none s hd]
  unfold State.fetched State.ended
  simp [h2, he]

@[simp] theorem State.done_log (s : State) (th : Thread) (c : Nat) : (s.done th c).log = s.log := by cases th <;> rfl
@[simp] theorem State.done_mem (s : State) (th : Thread) (c : Nat) : (s.done th c).mem = s.mem := by cases th <;> rfl
@[simp] theorem State.done_regs (s : State) (th : Thread) (c : Nat) : (s.done th c).regs = s.regs := by cases th <;> rfl

/-- The end of an instruction with no record posted or held. -/
theorem finish_done (s : State) (th : Thread) (c : Nat) (h : s.log.posted = [] ∧ s.log.held = []) : finish (s.done th c) = .next (s.done th c) :=
  finish_nil _ (by simpa using h.1) (by simpa using h.2)

/-- A register operation: its result in rd. -/
theorem State.op3_ready (s : State) (th : Thread) (c : Nat) (rd rs1 rs2 : Reg) (f : Word → Word → Word) (h : s.Ready th c) :
    finish (s.op3 th c rd rs1 rs2 f) = .next ((s.setGr th rd (f (s.gr th rs1) (s.gr th rs2))).done th c) := by
  have e : s.op3 th c rd rs1 rs2 f = (s.setGr th rd (f (s.gr th rs1) (s.gr th rs2))).done th c := by
    unfold State.op3; rw [State.alu_ready s th c _ h]; cases th <;> rfl
  rw [e]; exact finish_done _ _ _ (by simpa using h.2.2)

/-- An immediate operation: its result in rd. -/
theorem State.opI_ready (s : State) (th : Thread) (rd rs1 : Reg) (f : Word → Word) (h : s.Ready th 1) :
    finish (s.opI th rd rs1 f) = .next ((s.setGr th rd (f (s.gr th rs1))).done th 1) := by
  have e : s.opI th rd rs1 f = (s.setGr th rd (f (s.gr th rs1))).done th 1 := by
    unfold State.opI; rw [State.alu_ready s th 1 _ h]; cases th <;> rfl
  rw [e]; exact finish_done _ _ _ (by simpa using h.2.2)

/-- An FP operation: its result in fd, its flags added to fstat. -/
theorem State.fop_ready (s : State) (th : Thread) (c : Nat) (fd : FReg) (f : ThreadSt → Word × BitVec 6) (h : s.Ready th c) :
    finish (s.fop th c fd f) = .next (((s.setFr th fd (f (s.th th)).1).modTh th fun t => t.flag (f (s.th th)).2).done th c) := by
  have e : s.fop th c fd f = ((s.setFr th fd (f (s.th th)).1).modTh th fun t => t.flag (f (s.th th)).2).done th c := by
    unfold State.fop; rw [State.alu_ready s th c _ h]; cases th <;> rfl
  rw [e]; exact finish_done _ _ _ (by simpa using h.2.2)

/-- An FP operation with its result in rd. -/
theorem State.fopG_ready (s : State) (th : Thread) (c : Nat) (rd : Reg) (f : ThreadSt → Word × BitVec 6) (h : s.Ready th c) :
    finish (s.fopG th c rd f) = .next (((s.setGr th rd (f (s.th th)).1).modTh th fun t => t.flag (f (s.th th)).2).done th c) := by
  have e : s.fopG th c rd f = ((s.setGr th rd (f (s.th th)).1).modTh th fun t => t.flag (f (s.th th)).2).done th c := by
    unfold State.fopG; rw [State.alu_ready s th c _ h]; cases th <;> rfl
  rw [e]; exact finish_done _ _ _ (by simpa using h.2.2)

/-- A trap of a thread that is in no trap: the saved registers, the vector, and record 0x030 (R82). -/
theorem State.trapEntry_first (s : State) (th : Thread) (cause : Nat) (v : Word) (h : (s.th th).intrap = false) :
    s.trapEntry th cause v =
      (((s.modTh th fun t => { t with tpc := t.pc, tcause := nw cause, tval := v, intrap := true, pc := t.tvec }).dev 0x030 3
        [thWord th, nw cause, (s.th th).pc, v]).spend 2) := by
  unfold State.trapEntry
  simp [h]

/-- An instruction whose effect is the state `u` ends there. -/
theorem Ends_of {i : Instr} {s : State} {th : Thread} {c : Nat} {f : State → InsOut} {u : State}
    (hi : exec i s = finish (s.insn th c f)) (h : s.Ready th c) (hf : f s = { s := u }) : Ends i s th c u := by
  unfold Ends; rw [hi, State.insn_ends s th c f h (by rw [hf]) (by rw [hf]), hf]; rfl

/-- An instruction whose effect is a trap takes it. -/
theorem Traps_of {i : Instr} {s : State} {th : Thread} {c : Nat} {f : State → InsOut} {k : Nat} {v : Word}
    (hi : exec i s = finish (s.insn th c f)) (h : s.Ready th c) (h2 : s.canRun th 2 = true)
    (hf : f s = { s := s, trap := some (k, v) }) : Traps i s th k v := by
  unfold Traps; rw [hi, State.insn_trap s th c f h k v h2 (by rw [hf]) (by rw [hf]), hf]

end Sys2Proof.Machine
end

