-- ==== Sys2Proof/Tests/Slice0.lean ====
section
/-! SUPPORT. Tests: ill-formed terms, words written out from 03 R70, R71, and, for every statement that has hypotheses, a state and
operands that meet them (a statement is named in the docstring of its witness). -/

open Sys2Proof Sys2Proof.Machine

/-! ### Well-formedness -/

set_option maxRecDepth 8000 in
/-- One ill-formed term for each check of `Instr.wf`. -/
theorem test_ill_formed_refused :
    (Instr.tickStart { acfail := 0, damperIn := false, witGrant := false, pfail := false, chgdet := false, holdup := 0, ash := List.replicate 17 0 }).wf = false ∧ (Instr.registerWrite .spi 0x62 0).wf = false ∧
    (Instr.sramScrub 0x200001).wf = false ∧ (Instr.sync 0 0 0 9 0 0).wf = false ∧ (Instr.ldpd .B 5 1 0).wf = false ∧
    (Instr.stpd .F 31 1 0).wf = false ∧ (Instr.illegalEncoding .B 0x08000000).wf = false ∧ (Instr.rdsr .B 1 11).wf = false ∧
    (Instr.wrsr .B 31 1).wf = false ∧ (Instr.enforceWriteEnd 0 true 3).wf = false ∧ (Instr.thmSubst .spi 0 40 0).wf = false ∧
    (Instr.otpScreenDone (List.replicate 257 0) 0).wf = false ∧ (Instr.mfrAddr (some (List.replicate 256 0)) none false).wf = false ∧
    (Instr.mfrData (some (List.replicate 256 0)) none false).wf = false ∧ (Instr.mfrEmb (some (List.replicate 256 0)) none).wf = false ∧
    (Instr.pmbusMapCommand 0 0 (some (List.replicate 256 0)) none).wf = false ∧ (Instr.twiCxDone 0 0 (List.replicate 33 0)).wf = false ∧
    (Instr.stackFrame 0 0 0 0 []).wf = false ∧ (Instr.mirrorFrame (List.replicate 501 0)).wf = false ∧
    (Instr.mirrorAck (List.replicate 501 0)).wf = false ∧
    (Instr.fuseSenseDone (List.replicate 257 { w := 0, normal := 0, margin := 0 })).wf = false ∧ (Instr.read 0 0).wf = false ∧
    (Instr.write 0 []).wf = false := by decide

/-! ### Words, bit by bit (R70, R71, R73, R76-R78) -/

/-- OP (0x01): opcode, rd 3, rs1 4, rs2 5, fn; SUB and REMU. -/
theorem test_word_op : decode .F 0b00000100011001000010100000000001 = some (.sub .F 3 4 5) ∧
    decode .B 0b00000100011001000010100000011011 = some (.remu .B 3 4 5) := by decide

/-- The immediate forms (0x02-0x09), rd 31, rs1 1: XORI, SRAI by 17, LUI. -/
theorem test_word_immediate : decode .F 0b00010111111000011000000000000001 = some (.xori .F 31 1 0x8001) ∧
    decode .B 0b00100011111000010000000001010001 = some (.srai .B 31 1 17) ∧ decode .B 0b00100111111000001111111100000000 = some (.lui .B 31 0xFF00) := by
  decide

/-- Loads and stores: LBU (0x14), rd 2, rs1 9; SH (0x16), data 2, base 9; LDPD (0x1A), rd 6; an odd field of LDPD; FSW (0x1D), f15. -/
theorem test_word_memory : decode .B 0b01010000010010010000000000000100 = some (.lbu .B 2 9 4) ∧
    decode .B 0b01011000010010011111111111111110 = some (.sh .B 2 9 0xFFFE) ∧ decode .F 0b01101000110010010000000000001000 = some (.ldpd .F 6 9 8) ∧
    decode .F 0b01101000111010010000000000001000 = none ∧ decode .F 0b01110101111010010000000000000000 = some (.fsw .F 15 9 0) ∧
    decode .F 0b01110110000010010000000000000000 = none := by decide

/-- Branches and jumps: BGEU (0x25) rs1 7, rs2 8, −1; JAL (0x26) rd 1, −4; JALR (0x27). -/
theorem test_word_control : decode .B 0b10010100111010001111111111111111 = some (.bgeu .B 7 8 0xFFFF) ∧
    decode .B 0b10011000001111111111111111111100 = some (.jal .B 1 0x1FFFFC) ∧ decode .B 0b10011100001001110000000000000100 = some (.jalr .B 1 7 4) := by
  decide

/-- FOP (0x28): FMAC f1, f2, f3; FSQRT with its unused field 0 and not 0; FCVTSW f1, g9; FLE g9, f2, f3. -/
theorem test_word_fp : decode .F 0b10100000001000100001100000000011 = some (.fmac .F 1 2 3) ∧
    decode .F 0b10100000001000100000000000000101 = some (.fsqrt .F 1 2) ∧ decode .F 0b10100000001000100000100000000101 = none ∧
    decode .F 0b10100000001010010000000000010001 = some (.fcvtsw .F 1 9) ∧ decode .F 0b10100001001000100001100000011010 = some (.fle .F 9 2 3) := by
  decide

/-- SYS (0x30): WRSR special register 9 from g4; EWAIT g1, g4; RETT. -/
theorem test_word_sys : decode .B 0b11000000000001000100100000000100 = some (.wrsr .B 9 4) ∧
    decode .B 0b11000000001001000000000000000010 = some (.ewait .B 1 4) ∧ decode .F 0b11000000000000000000000000000110 = some (.rett .F) := by decide

/-- TSTEP (0x31), TCURV (0x32) and the units (0x33-0x38): FBW, EXFER, TRES, LOGE, NVQ, PMIR. -/
theorem test_word_units : decode .F 0b11000100001001000000000001000000 = some (.tstep .F 1 4 64) ∧
    decode .F 0b11001000001000100010100000000000 = some (.tcurv .F 1 2 5) ∧ decode .F 0b11001100001001000010100000000001 = some (.fbw .F 1 4 5) ∧
    decode .B 0b11010000001001000010100000000100 = some (.exfer .B 1 4 5) ∧ decode .B 0b11010100001001000000000000000001 = some (.tres .B 1 4) ∧
    decode .F 0b11011000001001000010100000000000 = some (.loge .F 1 4 5) ∧ decode .B 0b11011100001000000000000000000001 = some (.nvq .B 1) ∧
    decode .B 0b11100000001001000010100000000010 = some (.pmir .B 1 4 5) := by decide

/-! ### Small states -/

/-- A controller that has booted, its threads ready: B running, nothing installed. -/
def tOn : State := { boot := { stage := .done }, clk := { pllLock := true, refOk := true }, stk := { b := .running } }
/-- The same in thread F's slice. -/
def tF : State := { tOn with cycle := 240, stk := { tOn.stk with fLive := true } }
/-- One register of a thread set. -/
def tG (th : Thread) (s : State) (v : Word) : State := s.setGr th 6 v

/-! ### Witnesses: the machine, encodings, integer instructions -/

/-- StepRunsFrontCommand: both queues. -/
theorem witness_StepRunsFrontCommand : ({ pending := [.boot, .pfail] } : State).pending = .boot :: [.pfail] ∧ State.reset.pending = [] := by decide

/-- StepKeepsCanonical: a canonical state with a step. -/
theorem witness_StepKeepsCanonical : State.reset.Canonical ∧ step State.reset = .next State.reset := by
  unfold State.Canonical; exact ⟨by decide, rfl⟩

/-- DecodeOfEncode: a word of every format. -/
theorem witness_DecodeOfEncode : (Instr.add .F 31 0 1).wf = true ∧ threadOf (.add .F 31 0 1) = some .F ∧ encode (.add .F 31 0 1) = some 0x07E00800 ∧
    (Instr.ldpd .B 30 1 0xFFFF).wf = true ∧ encode (.ldpd .B 30 1 0xFFFF) = some 0x6BC1FFFF ∧ encode (.sw .B 31 1 0x8000) = some 0x57E18000 ∧
    encode (.beq .F 0 31 0xFFFF) = some 0x801FFFFF ∧ encode (.jal .B 31 0x100000) = some 0x9BF00000 := by decide

/-- ExampleAndIllegalWords; the threads at the last cycle that fits. -/
theorem witness_ExampleAndIllegalWords : State.Ready { tOn with cycle := 238 } .B 2 ∧ State.Ready { tF with cycle := 538 } .F 2 ∧
    (tOn.th .B).intrap = false ∧ (tF.th .F).intrap = false ∧ decode .B 0 = none ∧ decode .F 0xFFFFFFFF = none := by
  unfold State.Ready; decide

/-- GeneralRegisters. -/
theorem witness_GeneralRegisters : (31 : Reg) ≠ 0 ∧ (1 : Reg) ≠ 31 ∧ (15 : FReg) ≠ 0 ∧ Thread.F ≠ Thread.B := by decide

/-- RegisterOperations, MultiplicationAndDivision, ImmediateOperations, JalrJumps, FpResults, FpMinMaxClip, SpecialRegisters: ready for their costs, at
the last cycle that fits. -/
theorem witness_ready_for_each_cost : (∀ c ∈ [1, 2, 3, 12, 14, 34], State.Ready { tF with cycle := 540 - c } .F c ∧
    State.Ready { tOn with cycle := 240 - c } .B c) ∧ State.Ready { tOn with cycle := 599 } .B 34 := by unfold State.Ready; decide

/-- Loads: the last word of each memory. -/
theorem witness_Loads : (tG .B tOn 0x13FFFC).Ready .B 2 ∧ tOn.PlainWord 0x13FFFC ∧ tOn.PlainWord 0x27FFFC ∧ tOn.PlainWord 0x43FFFF ∧
    ((tG .B tOn 0x27FFFC).gr .B 6 + (0 : BitVec 16).signExtend 32).toNat = 0x27FFFC := by unfold State.Ready State.PlainWord; decide

/-- Loads from a register. -/
theorem witness_Loads_register : (tG .F tF 0x60).Ready .F 3 ∧ (tF.rd .F 0x60 4).2.2 = .ok ∧ (tF.rd .F 0x62 2).2.2 = .ok ∧
    (tF.rd .F 0x63 1).2.2 = .ok ∧ inMram 0x60 = false := by unfold State.Ready; decide

/-- Stores: the last bytes of data SRAM by each thread, of program SRAM by B. -/
theorem witness_Stores : Memory.wf tOn.mem = true ∧ tF.Storable .F 0x27FFFC 4 ∧ tF.Storable .F 0x27FFFE 2 ∧ tF.Storable .F 0x27FFFF 1 ∧
    tOn.Storable .B 0x13FFFC 4 ∧ (tG .B tOn 0x13FFFC).Ready .B 1 := by
  unfold State.Ready State.Storable; decide

/-- Stores to a register. -/
theorem witness_Stores_register : (tG .B tOn 0x60).Ready .B 2 ∧ (tOn.wr .B 0x60 4 1).2 = .ok ∧ (tOn.wr .B 0x62 2 1).2 = .ok ∧
    (tOn.wr .B 0x63 1 1).2 = .ok := by unfold State.Ready; decide

/-- LoadsAndStoresThatTrap: each clause. -/
theorem witness_LoadsAndStoresThatTrap : (tG .B tOn 0x200001).Ready .B 2 ∧ (0x200001 : Nat) % 2 ≠ 0 ∧ inMram 0x10000000 = true ∧ inMram 0x101FFFFF = true ∧
    (tG .F tF 0x10000000).Ready .F 2 ∧ tOn.unmapped 0x280000 = true ∧ inProg 0x100000 = true ∧ inProg 0x13FFFF = true ∧ inLog 0x400000 = true ∧
    inLog 0x43FFFF = true ∧ (tG .F tF 0x100000).Ready .F 2 := by unfold State.Ready; decide

/-- PairLoads and PairStores: the last pair of data SRAM; a field that is odd. -/
theorem witness_pairs : (tG .B tOn 0x27FFF8).Ready .B 4 ∧ tOn.PlainWord 0x27FFF8 ∧ tOn.PlainWord 0x27FFFC ∧ tOn.PlainWord 0x27FFF0 ∧ tOn.PlainWord 0x27FFF4 ∧
    (tG .B tOn 0x27FFF0).Ready .B 8 ∧ encode (.ldpd .B 31 1 0) = some 0x6BE10000 ∧
    tOn.Storable .B 0x27FFF8 4 ∧ tOn.Storable .B 0x27FFFC 4 ∧ (tG .B tOn 0x27FFF0).Ready .B 7 ∧ (∀ k : Fin 4, tOn.Storable .B (0x27FFF0 + 4 * k.val) 4) := by
  unfold State.Ready State.PlainWord State.Storable; decide

/-- BranchesAndJal, JalrJumps, TrapEntry and ReturnTrapAndDoubleTraps: targets at both ends of program SRAM and just outside; equal and unequal operands. -/
theorem witness_targets : (let good (t : Word) : Bool := t.toNat % 4 == 0 && decide (0x100000 ≤ t.toNat) && decide (t.toNat < 0x140000)
    good 0x00100000 = true ∧ good 0x0013FFFC = true ∧ good 0x00140000 = false ∧ good 0x000FFFFC = false ∧ good 0x00100002 = false) ∧
    tOn.Ready .B 1 ∧ tOn.Ready .B 2 ∧ tF.Ready .F 2 ∧ (tOn.th .B).pc + 4 * (0xFFFF : BitVec 16).signExtend 32 = 0x000FFFFC ∧
    (tG .B tOn 5).gr .B 6 ≠ (tG .B tOn 5).gr .B 7 ∧ tOn.gr .B 6 = tOn.gr .B 7 := by unfold State.Ready; decide

/-! ### Witnesses: FP, threads and traps -/

/-- FpOperandRules: 1 and 0, infinity and 0, 0 and −0, two infinities, −1, the least subnormal and a NaN. -/
theorem witness_FpOperandRules : (let e (w : Word) : Nat := w.toNat / 2 ^ 23 % 256
    e 0x3F800000 ≠ 255 ∧ e 0x3F800000 ≠ 0 ∧ e 0x80000000 = 0 ∧ e 0x7F800000 = 255 ∧ (0x7F800000 : Word).toNat % 2 ^ 23 = 0 ∧
    (0xBF800000 : Word).getLsbD 31 = true ∧ e 0x00000001 = 0 ∧ e 0x7FC00000 = 255 ∧ (0x7FC00000 : Word).toNat % 2 ^ 23 ≠ 0) := by decide

/-- FpResults and FpMinMaxClip: a NaN; a pair in order; ready at the widest costs (`witness_ready_for_each_cost`). -/
theorem witness_FpMinMaxClip : fIsNaN 0x7FC00000 = true ∧ fIsNaN 0x7F800001 = true ∧ fpLt 0xBF800000 0x00000000 = true ∧ tF.Ready .F 1 := by
  unfold State.Ready; decide

/-- InstructionOutsideItsThreadIdles: F before its wake, halted, past 539; B not started, gated, during F's slice. -/
theorem witness_InstructionOutsideItsThreadIdles : State.reset.log.posted = [] ∧ State.reset.log.held = [] ∧ threadOf (.yield .F) = some .F ∧ encode (.yield .F) = some 0xC0000000 ∧
    State.reset.stk.fLive = false ∧ ({ tF with stk := { tF.stk with fHalted := true } } : State).stk.fHalted = true ∧
    540 ≤ ({ tF with cycle := 540 } : State).cycle ∧ State.reset.stk.b ≠ .running ∧ tF.stk.fLive = true ∧
    ({ tOn with stk := { tOn.stk with bGated := true } } : State).stk.bGated = true ∧
    (let s : State := { tOn with cycle := 240, time := { strobeDue := true } }
     s.time.strobeDue = true ∧ 240 ≤ s.cycle) := by decide

/-- TrapEntry and ReturnTrapAndDoubleTraps: both threads, out of a trap and in one. -/
theorem witness_TrapEntry : tOn.Ready .B 2 ∧ tF.Ready .F 2 ∧ (tOn.th .B).intrap = false ∧ (tF.th .F).intrap = false ∧
    (∀ th : Thread, let s := (match th with | .F => tF | .B => tOn).modTh th fun t => { t with intrap := true }
      s.Ready th 2 ∧ (s.th th).intrap = true) := by
  unfold State.Ready; refine ⟨by decide, by decide, by decide, by decide, fun th => ?_⟩; cases th <;> decide

/-- SpecialRegisters: the first and last writable indices, one of each refusal, words for the traps. -/
theorem witness_SpecialRegisters : tOn.Ready .B 1 ∧ tF.Ready .F 1 ∧ tOn.Ready .B 2 ∧ tF.Ready .F 2 ∧ (encode (.wrsr .F 8 1)).isSome = true ∧ 11 ≤ (11 : BitVec 5).toNat ∧
    11 ≤ (31 : BitVec 5).toNat ∧ (encode (.wrsr .B 31 1)).isSome = true ∧ (encode (.rdsr .B 1 11)).isSome = true ∧ (10 : BitVec 5) ∈ ([0, 1, 2, 3, 6, 7, 10] : List (BitVec 5)) := by
  unfold State.Ready; decide

/-- ThreadInstructions and EventWaits: an event pending from an earlier cycle, one of this cycle alone, and none, masks 0, 1, 0xFFF and 0x1000, both waits. -/
theorem witness_EventWaits : tF.Ready .F 2 ∧ tOn.Ready .B 1 ∧ tOn.Ready .B 2 ∧ (encode (.twait .F 1)).isSome = true ∧ (encode (.ewait .F 1 2)).isSome = true ∧
    ((0xFFF : Word).setWidth 12 : BitVec 12) ≠ 0 ∧ (0xFFF : Word).toNat < 4096 ∧ 4096 ≤ (0x1000 : Word).toNat ∧
    (let s : State := { tOn with stk := { tOn.stk with evpend := 0x800 } }
     s.Ready .B 1 ∧ s.stk.evpend &&& 0xFFF ≠ 0) ∧ tOn.stk.evpend &&& 0xFFF = 0 ∧
    (let s : State := { tOn with stk := { tOn.stk with evpend := 1, b := .ewait 4 1 } }
     s.log.posted = [] ∧ s.log.held = [] ∧ s.stk.b = .ewait 4 1 ∧ s.evBefore &&& 1 = 0 ∧ s.stk.evpend &&& 1 ≠ 0 ∧ s.stokerOn = true ∧
     s.stk.bGated = false ∧ s.stk.fLive = false ∧ State.evBefore { s with now := 1 } &&& 1 ≠ 0) ∧
    (let s : State := { tOn with stk := { tOn.stk with b := .twait 0 } }
     s.stk.b = .twait 0 ∧ 0 ≤ s.now ∧ s.stokerOn = true ∧ s.stk.bGated = false ∧ s.stk.fLive = false) := by unfold State.Ready; decide

/-- OverrunsAndWatchdog: the first overrun, the eighth, and an expiry. -/
theorem witness_OverrunsAndWatchdog : tF.stk.fLive = true ∧ tF.time.strobeDue = false ∧ tF.stk.limitDue = false ∧ Regs.wf tF.regs = true ∧
    max 1 ((tF.reg 0x60).toNat / 65536 % 256) = 8 ∧ min 255 (tF.stk.ovrConsec.toNat + 1) < 8 ∧
    8 ≤ min 255 (({ tF.stk with ovrConsec := 7 } : StokerSt).ovrConsec.toNat + 1) ∧ tF.stk.safe = false ∧
    ({ tOn with stk := { tOn.stk with wdogDue := true } } : State).stk.wdogDue = true := by decide

/-! ### Witnesses: unit instructions -/

/-- A machine table 0 at 0x0020_0000: one state with `n` transitions, the first term of the first of type `term`. -/
def tMach (n term : Byte) : State := { tOn with
  mem := memPut [] 0x200010 [1, 0, 1, 0, 0, 0, 0, 0, 0, 0, n, 0, 0, 0, 0, 0, term, 0, 0, 0, 0x21, 0]
  seq := { tbls := [{ typ := 1, id := 0, addr := 0x200000, len := 48, version := 0 }] } }
/-- What the search of its state 0 finds. -/
def tFound (s : State) : StepOut := State.search .B 0 0x200020 16 (s.byte 0x20001A).toNat (s.h16 0x200018) 6 s

/-- SequencerSteps: no table; none holds, a mismatched pair of words, taken with no action; a budget of 8 that is too small; the
machine numbers 63 and 64; its words whole, and one uncorrectable. -/
theorem witness_SequencerSteps : tOn.table 1 63 = none ∧ tOn.Ready .B 6 ∧ tOn.Ready .B 8 ∧ tOn.Ready .B 13 ∧ (63 : Word).toNat < 64 ∧ 64 ≤ (64 : Word).toNat ∧
    (tMach 1 0).table 1 0 = some { typ := 1, id := 0, addr := 0x200000, len := 48, version := 0 } ∧ (tMach 1 0).seq.mach[(0 : Fin 64)].fault = false ∧
    (match tFound (tMach 0 0) with | .none _ c => c == 6 | _ => false) = true ∧
    (match tFound (tMach 1 6) with | .fault _ k e c => k == 0 && e == .bad && c == 13 | _ => false) = true ∧
    (match State.search .B 0 0x200020 8 1 0 6 (tMach 1 6) with | .late _ => true | _ => false) = true ∧
    (match tFound (tMach 1 0) with | .taken _ k ev c => k == 0 && ev == 0 && c == 7 | _ => false) = true ∧
    (tMach 1 0).byte 0x200035 = 0 ∧ (tMach 1 0).byte 0x20001E = 0 ∧ (let l := [0x200010, 0x200014, 0x200018, 0x20001C]
     ((tMach 1 0).readAll 0 l).2 = false ∧ (State.readAll { tMach 1 0 with ecc := [(0x200014, .uncorr)] } 0 l).2 = true) ∧
    ((tMach 1 0).readAll 0 [0x200034, 0x200018, 0x20001C]).2 = false ∧ tOn.Ready .B 2 := by unfold State.Ready; decide

/-- FireboxInstructions: contexts 47 and 48 of 48, words 30 and 31, a parameter, a pair, a word that only hardware writes; curves 255 and 256. -/
theorem witness_FireboxInstructions : tOn.Ready .B 18 ∧ tOn.Ready .B 3 ∧ tOn.Ready .B 4 ∧ tOn.nCtx = 48 ∧ (0x2F1E : Word) &&& 0xFFFF80E0 = 0 ∧
    (0x301F : Word) &&& 0xFFFF80E0 = 0 ∧ (0x20 : Word) &&& 0xFFFF80E0 ≠ 0 ∧ (0x2F1E : Word).toNat / 256 % 128 = 47 ∧ (0x2F1E : Word).toNat % 32 = 30 ∧
    sget tOn.ecc 0x14000 = none ∧ (tOn.info 0x14008).kind = .par ∧ (tOn.info 0x14008).rwc = 0 ∧ (tOn.info 0x14060).kind = .hw ∧
    (tOn.info 0x14020).rwc = 2 ∧ (tOn.info 0x14020).widx = 0 ∧ (tOn.info 0x1405C).kind ≠ .hw ∧ (255 : Word).toNat < 256 ∧ 256 ≤ (256 : Word).toNat ∧
    ({ tOn with seq := { tbls := [{ typ := 2, id := 255, addr := 0x200000, len := 32, version := 1 }] } } : State).table 2 255 =
      some { typ := 2, id := 255, addr := 0x200000, len := 32, version := 1 } ∧ tOn.table 2 255 = none ∧
    (let t : Tbl := { typ := 2, id := 255, addr := 0x200000, len := 32, version := 1 }
     let x : Word := 0x3F800000
     (∀ k ∈ tOn.curveAddrs t x, sget tOn.ecc (k - k % 4) = none) ∧ (tOn.curveRead 1 t x).2.2 = false ∧
     ((tOn.curveAddrs t x).find? fun k => sget [(0x200014, EccErr.uncorr)] (k - k % 4) == some .uncorr) = some 0x200014) := by unfold State.Ready; decide

/-- A pool of 100: holder 3 with 30 of them, pending 10, an open offer of 20 to node 9 on port 0; holder 3 is open. -/
def tPool : State := { tOn with
  regs := [(0x610C0, 0x80800000)]
  link := { port := (Vector.replicate 4 ({} : StkPortSt)).set 0 { st := 2, far := 9 } }
  emb := {
    total := { v := 100, c := ~~~ 100 }, free := { v := 40, c := ~~~ 40 }, granted := { v := 30, c := ~~~ 30 }
    transit := { v := 20, c := ~~~ 20 }, pending := { v := 10, c := ~~~ 10 }
    hold := (Vector.replicate 256 ({} : HolderSt)).set 3 { grant := { v := 30, c := ~~~ 30 }, pend := { v := 10, c := ~~~ 10 } }
    xfer := (Vector.replicate 32 ({} : XferSt)).set 0 { dir := 1, st := 1, node := 9, xid := 7, w := 20 } } }

/-- EmberInstructions: open and closed holders, the pool's own amounts and one more, a route and none, records free. -/
theorem witness_EmberInstructions : tPool.Ready .B 4 ∧ tPool.Ready .B 2 ∧ tPool.embAdmit = true ∧ tPool.emb.frozen = false ∧ tPool.hOpen 3 = true ∧
    tPool.hOpen 4 = false ∧ tPool.emb.free.v.toNat < (41 : Word).toNat ∧ (40 : Word).toNat ≤ tPool.emb.free.v.toNat ∧ tPool.emb.debt.v = 0 ∧
    tPool.thmCap (tPool.hGroup 3) = none ∧ tPool.emb.hold[(3 : Fin 256)].grant.v.toNat < (31 : Word).toNat ∧ tPool.route 9 = some 0 ∧
    tPool.route 10 = none ∧ tPool.emb.xfer[(1 : Fin 32)].dir = 0 ∧ tPool.emb.xfer[(0 : Fin 32)].dir ≠ 0 ∧ tPool.anyHot = false ∧ 2 ^ 14 ≤ (0x4000 : Word).toNat ∧
    2 ^ 32 ≤ tPool.emb.total.v.toNat + (0xFFFFFF9C : Word).toNat ∧ ({ tPool.emb with frozen := true } : EmbSt).frozen = true ∧
    ({ tPool.emb with debt := { v := 1, c := ~~~ 1 } } : EmbSt).debt.v ≠ 0 := by unfold State.Ready; decide

/-- EmberInstructions: a group that a hot zone caps, and every record in use. -/
theorem witness_EmberInstructions_capped : (let s : State := { tPool with
      regs := [(0x40018, 5), (0x40400, 0x80000001), (0x4041C, 20), (0x610C0, 0x80800000)]
      thm := { zone := (Vector.replicate 8 ({} : ZoneSt)).set 0 { level := 2 } } }
    s.thmCap (s.hGroup 3) = some 20 ∧ (20 : Word).toNat < s.emb.hold[(3 : Fin 256)].grant.v.toNat + 1 ∧ s.anyHot = true ∧
    (s.reg 0x40018).toNat < (6 : Word).toNat) ∧
    (∀ i : Fin 32, (Vector.replicate 32 ({ dir := 2 } : XferSt))[i].dir ≠ 0) := by decide

/-- RecordAndStoreInstructions: sensors 39 and 40, a full queue of measurements, headers 0xAFF and 0xB00, operands at both ends of data SRAM,
pages 32751 and 32752, the gate shut and open, a full queue of pages. -/
theorem witness_RecordAndStoreInstructions : tOn.Ready .B 2 ∧ tOn.Ready .B 4 ∧ tOn.Ready .B 18 ∧ (39 : Word).toNat = (39 : Fin 40).val ∧ 40 ≤ (40 : Word).toNat ∧
    tOn.thm.queue.length < 8 ∧ 8 ≤ ({ queue := List.replicate 8 0 } : ThmSt).queue.length ∧ 0xB00 ≤ (0xB00 : Word).toNat % 4096 ∧ ¬ 0xB00 ≤ (0xAFF : Word).toNat % 4096 ∧
    (0x8B00 : Word).getLsbD 15 = true ∧ (0x27FFC0 : Word).toNat + 64 ≤ 0x280000 ∧ 0x280000 < (0x27FFC4 : Word).toNat + 64 ∧ (0x1FFFFC : Word).toNat < 0x200000 ∧
    tOn.nvLocked .B 32751 = false ∧ tOn.nvLocked .B 32752 = true ∧ tOn.nvPages < 16 ∧ tOn.pins.pfail = false ∧ tOn.nvm.ng < tOn.gQ + 10 ∧
    (let s : State := { tOn with nvm := { ng := 10 } }
     s.gQ + 10 ≤ s.nvm.ng) ∧
    16 ≤ ({ tOn with nvm := { queue := List.replicate 16 { src := .thB, off := 0, data := [] } } } : State).nvPages := by unfold State.Ready; decide

/-- A paired active, its mirror's deferrable queue holding `n` records, with room in the mirror for 64 bytes of program data. -/
def tActive (n : Nat) : State := { tOn with regs := [(0xC0000, 0x00400000)], feat := 0x100, pr := { role := .active, queue := List.replicate n [] } }

/-- MessageInstructions: ports 0 and 1 of 1, an UP port and none, an empty queue and a full one, messages that may be sent and not, a message that waits; lengths 0, 1,
64 and 65; paired and not, room and none. -/
theorem witness_MessageInstructions : tPool.Ready .B 6 ∧ tPool.nPorts = 1 ∧ tPool.stkLive = true ∧ tPool.portUp 0 = true ∧ tOn.portUp 0 = false ∧
    tPool.link.port[(0 : Fin 4)].txq[(0 : Fin 4)].length < partSize 0 ∧ partSize 0 ≤ (List.replicate 28 (0 : Msg)).length ∧ ¬ 0x40 ≤ (0x3F : Byte).toNat ∧
    tOn.link.ctrl = [] ∧ tOn.protHit 0x27FFF0 16 = false ∧ (tActive 0).Ready .B 5 ∧ (tActive 0).Ready .B 20 ∧ 64 < (65 : Word).toNat ∧
    (tActive 0).pr.role = .active ∧ (tActive 0).pr.solo = false ∧ (tActive 0).pr.pmirUsed + 64 ≤ ((tActive 0).reg 0xC0000).toNat / 65536 % 256 ∧
    ¬ (1 + 64 ≤ ((tActive 0).reg 0xC0000).toNat / 65536 % 256) ∧ (tActive 63).pr.queue.length < 64 ∧ 64 ≤ (tActive 64).pr.queue.length := by
  unfold State.Ready; decide

/-! ### Witnesses: the Ember pool -/

set_option maxRecDepth 8000 in
/-- EmberLedgerConserved, ShadowCommits (the check): a sound pool with every counter in use, and one that is not sound. -/
theorem witness_PoolSound : State.reset.PoolSound ∧ tPool.PoolSound ∧ embBreach { tPool.emb with free := { v := 41, c := ~~~ 41 } } ≠ none ∧
    tPool.emb.frozen = false ∧ tPool.embHalted = false := by unfold State.PoolSound; decide

/-- EmberHostCommands: barred, busy or in a standby, not admitted, frozen, closed, each result; a lease that has run out; an open transfer and none. -/
theorem witness_EmberHostCommands : (Initiator.F = .F ∧ (tActive 0).pr.role = .active) ∧ ¬ (Initiator.spi = .F) ∧ tPool.emb.hresBusy = false ∧
    tPool.pr.role ≠ .syncing ∧ tPool.embAdmit = true ∧ ({ tActive 0 with emb := { ops := 6 } } : State).embAdmit = false ∧ tPool.hOpen 3 = true ∧ tPool.hOpen 0 = false ∧
    (30 : Word).toNat ≤ tPool.emb.hold[(3 : Fin 256)].grant.v.toNat ∧ tPool.emb.hold[(3 : Fin 256)].grant.v.toNat < (31 : Word).toNat ∧
    tPool.emb.hold[(3 : Fin 256)].pend.v ≠ 0 ∧ tPool.emb.hold[(0 : Fin 256)].pend.v = 0 ∧ tPool.emb.xfer[(0 : Fin 32)].dir = 1 ∧
    tPool.emb.xfer[(0 : Fin 32)].st = 1 ∧ tPool.emb.xfer[(31 : Fin 32)].dir ≠ 1 ∧
    (let s : State := { tPool with emb := { tPool.emb with hold := tPool.emb.hold.set 3 { tPool.emb.hold[(3 : Fin 256)] with lease := some 0 } } }
     s.emb.hold[(3 : Fin 256)].lease = some 0 ∧ 0 ≤ s.now ∧ (s.reg 0x610D8).toNat < s.emb.hold[(3 : Fin 256)].grant.v.toNat ∧
     s.emb.hold[(3 : Fin 256)].rstate ≠ .ask) := by decide

/-- EmberMessages: heard and not, waiting, both directions found and not, room and none, enabled and not, an overflow. -/
theorem witness_EmberMessages : tPool.portUp 0 = true ∧ tPool.portUp 1 = false ∧ tPool.embAdmit = true ∧ tPool.emb.waitMsg = [] ∧
    tPool.findXfer 1 9 7 = some 0 ∧ tPool.findXfer 1 9 8 = none ∧ tPool.findXfer 2 9 7 = none ∧ tPool.emb.xfer[(0 : Fin 32)].st ≠ 3 ∧
    ((fins 32).find? fun i => tPool.emb.xfer[i].dir == 0) = some 1 ∧ ((fins 32).find? fun i => (Vector.replicate 32 ({ dir := 2 } : XferSt))[i].dir == 0) = none ∧
    ¬ ((tPool.reg 0x60004).getLsbD 31 = true) ∧ (let s : State := { tPool with regs := [(0x60004, 0xC0000000)] }
      (s.reg 0x60004).getLsbD 31 = true ∧ (s.reg 0x60004).getLsbD 30 = true) ∧
    2 ^ 32 ≤ tPool.emb.total.v.toNat + ((0xFFFFFF9C : Word) - 0).toNat ∧ tPool.emb.total.v.toNat + ((0xFFFFFF9B : Word) - 0).toNat < 2 ^ 32 ∧
    (let s : State := { tPool with emb := { tPool.emb with xfer := (Vector.replicate 32 ({} : XferSt)).set 31 { dir := 2, st := 1, node := 9, xid := 7 } } }
     s.findXfer 2 9 7 = some 31) ∧
    (let s : State := { tPool with emb := { tPool.emb with xfer := (Vector.replicate 32 ({} : XferSt)).set 31 { dir := 1, st := 3, node := 9, xid := 7 } } }
     s.findXfer 1 9 7 = some 31 ∧ s.emb.xfer[(31 : Fin 32)].st = 3) := by decide

/-- Holder 3 asked to give back, its lease run out, its write on the bus. -/
def tRev (r : RevState) (on : Bool) : State := { tPool with emb := { tPool.emb with
  hold := tPool.emb.hold.set 3 { tPool.emb.hold[(3 : Fin 256)] with rstate := r, lease := some 0, enf := { need := !on, onBus := on } } } }

set_option maxRecDepth 20000 in
/-- EmberTimers: a record whose time has come, one whose offer has run out; lease, deadline, enforcement, its end, a retry. -/
theorem witness_EmberTimers : tPool.emb.xfer[(0 : Fin 32)].retryAt ≤ tPool.now ∧ tPool.emb.xfer[(0 : Fin 32)].offerEnd ≤ tPool.now ∧ tPool.log.posted = [] ∧ tPool.log.held = [] ∧ tPool.embHalted = false ∧
    tPool.emb.go = false ∧ (let r := (tRev .none false).emb.hold[(3 : Fin 256)]
     r.lease = some 0 ∧ 0 ≤ (tRev .none false).now ∧ ((tRev .none false).reg 0x610D8).toNat < r.grant.v.toNat ∧ r.rstate = .none ∧ r.enf.onBus = false) ∧
    (tRev .ask false).emb.hold[(3 : Fin 256)].deadline ≤ (tRev .ask false).now ∧ (tRev .ask false).emb.hold[(3 : Fin 256)].rstate = .ask ∧
    (tRev .enforce false).emb.hold[(3 : Fin 256)].enf.need = true ∧ (tRev .enforce false).wantsWrite 3 = true ∧
    (let r := (tRev .enforce true).emb.hold[(3 : Fin 256)]
     r.enf.onBus = true ∧ r.enf.sent.toNat ≤ r.grant.v.toNat ∧ r.enf.need = false ∧ r.rstate = .enforce ∧ r.pend.v ≠ 0) ∧
    ({ retryAt := some 0 } : EnfSt).retryAt = some 0 ∧ ({ retryAt := some 0 } : EnfSt).need = false ∧
    (tRev .enforce true).emb.hold[(3 : Fin 256)].enf.acked = false ∧ (tRev .enforce true).emb.frozen = false ∧ (tRev .enforce true).wantsWrite 3 = true ∧
    (tRev .enforce true).twi[(2 : Fin 3)].cx = none ∧ (20 : Word).toNat < (30 : Word).toNat := by decide

set_option maxRecDepth 20000 in
/-- EmberTimers: with nothing due, a message that waited for the tick is admitted; with a deadline due, it waits on. -/
theorem witness_EmberTimers_admits : (let m : MsgWait := { kind := .ask, p := 0, src := 9, xid := 0, w := 5 }
    let s : State := { tPool with emb := { tPool.emb with go := true, waitMsg := [m], xfer := Vector.replicate 32 {} } }
    s.emb.go = true ∧ s.emb.waitReg = [] ∧ s.embDue = false ∧ s.emb.waitMsg = [m] ∧ s.emb.waitHost = none ∧ s.embAdmit = true ∧ s.embHalted = false ∧
    s.emb.hold[(3 : Fin 256)].rstate ≠ .ask) ∧ (tRev .ask false).embDue = true := by decide

set_option maxRecDepth 8000 in
/-- EmberTimers: the bus is free for an enforcement write. -/
theorem witness_EmberTimers_bus : (tRev .enforce false).enfFree = true := by decide
set_option maxRecDepth 20000 in
/-- Both sides of the retry limit of ENFORCE_WRITE_END: the retries reset to 3. -/
theorem witness_EmberTimers_retry : (let s := tRev .enforce true
     s.emb.hold[(3 : Fin 256)].enf.onBus = true ∧ s.twi[(2 : Fin 3)].cxLoss < (s.reg 0xA2000).toNat / 65536 % 256 ∧
       ¬ 3 < (s.reg 0xA2000).toNat / 65536 % 256) := by decide

/-! ### Witnesses: the tick, registers, clock and time -/

/-- TickStarts: locked and not, a boundary due and not, a corrected error in data SRAM, the last word before the MRAM window's. -/
theorem witness_TickStarts : tOn.clk.pllLock = true ∧ tOn.boot.rstPend = none ∧ State.reset.clk.pllLock = false ∧ State.reset.time.sfDue = false ∧ tOn.cycle = 0 ∧ tOn.fbx.impIn = [] ∧
    ({ sfDue := true } : TimeSt).sfDue = true ∧ inMram 0x0FFFFFFF = false ∧ inMram 0x10000000 = true ∧
    sget ({ tOn with ecc := [(0x27FFFC, .corr)] } : State).ecc 0x27FFFC = some .corr := by decide

/-- ConversionsAndStrobe: channels of present and absent instances, the first and last battery channels; the strobe due, F enabled. -/
theorem witness_ConversionsAndStrobe : tOn.clk.pllLock = true ∧ tOn.awake = true ∧ tOn.chanOk 15 = true ∧ tOn.chanOk 16 = false ∧ tOn.chanOk 63 = true ∧
    tOn.chanOk 64 = false ∧ tOn.chanOk 80 = true ∧ tOn.chanOk 95 = true ∧
    (let s : State := { tOn with time := { strobeDue := true }, regs := [(0x60, 0x00080201)] }
     s.time.strobeDue = true ∧ s.cycle ≤ 240 ∧ 240 < 241 ∧ (s.reg 0x60).getLsbD 0 = true ∧ s.stk.fHalted = false ∧ s.stokerOn = true ∧ s.pr.resumeAt = none) := by decide

/-- Context 0 enabled, its start cycle 30, the samples delivered: reference channel 48, output channel 49, high limit 1, low limit 0. -/
def tCtx : State := { tOn with time := { strobeDue := true }, sns := { seen := BitVec.allOnes 96 }, regs := [(0x14000, 0x80000000), (0x14004, 30), (0x14008, 0x10301031), (0x14020, 0x3F800000), (0x14024, 0xC07FFFFF), (0x1402C, 0xFFFFFFFF)] }

/-- ContextRuns: due, its pairs good; without the high limit's complement they mismatch; the other ends. -/
theorem witness_ContextRuns : tCtx.ctxEn 0 = true ∧ tCtx.fbxOn = true ∧ tCtx.fbx.ctx[(0 : Fin 128)].fault = false ∧ tCtx.fbx.ctx[(0 : Fin 128)].ran = false ∧
    tCtx.feDue 0 = false ∧ tCtx.feExpired 0 = false ∧ tCtx.ctxReady 0 = true ∧ tOn.ctxReady 0 = false ∧ (tCtx.reg 0x14000).getLsbD 30 = false ∧ (tCtx.reg 0x14000).getLsbD 27 = false ∧
    tCtx.fbx.ctx[(0 : Fin 128)].prime = .no ∧ tCtx.tfe 0 = 0 ∧ tCtx.source 0 0x1030 = some 0 ∧ tCtx.source 0 0x1031 = some 0 ∧ (tCtx.ffSum 0).isSome = true ∧
    tCtx.pair 0x14020 = some 0x3F800000 ∧ tCtx.pair 0x14028 = some 0 ∧
    tOn.pair 0x14020 = none ∧
    tOn.ctxEn 0 = false ∧ tCtx.fbx.ctx[(0 : Fin 128)].oL = none ∧ tCtx.fbx.ctx[(0 : Fin 128)].oN = none := by decide

set_option maxRecDepth 8000 in
/-- ContextRuns: its words are read without error. -/
theorem witness_ContextRuns_ecc : (let b : State := { tCtx with cycle := tCtx.startCycle 0 }
    b.ctxEcc 0 = (b, false)) ∧ tCtx.startCycle 0 = 30 := by
  refine ⟨?_, by decide⟩
  rfl

/-- ShadowCommits: a write that the commit takes, no schedule to reject. -/
def tShadow : State := { tOn with time := { commitDue := true }, shadow := [{ ini := .spi, addr := 0x14008, val := 5 }] }

/-- ShadowCommits. -/
theorem witness_ShadowCommits : Regs.wf tShadow.regs = true ∧ tShadow.pr.role ≠ .active ∧ tShadow.pr.sets = [] ∧ tShadow.stk.fDiscard = false ∧ tShadow.stk.fLive = false ∧
    (∀ x : Fin 128, tShadow.fbx.ctx[x].fresh = false) ∧ tShadow.time.commitDue = true ∧ tOn.time.commitDue = false := by decide

/-- ShadowCommits: the checks find nothing. -/
theorem witness_ShadowCommits_check : tShadow.checkSet tShadow.lastWrites = (none, tShadow.lastWrites) := by decide

/-- RegisterWrites: a stored register, a parameter, a word of hardware, an absent instance, an absent unit, no address, each memory at its ends, a write that waits. -/
theorem witness_RegisterWrites : (tOn.info 0x90).kind = .rw ∧ (tOn.info 0x90).rwc = 0 ∧ tOn.absent 0x90 = false ∧ inRegs 0x90 = true ∧ (tOn.info 0x14008).kind = .par ∧
    (tOn.info 0x14060).kind = .hw ∧ tOn.absent 0x15800 = true ∧ tOn.absent 0x50004 = true ∧ tOn.unmapped 0x04 = true ∧ tOn.unmapped 0xFFFFFFFC = true ∧
    tOn.absent 0xFFFFFFFC = false ∧ inLog 0x43FFFC = true ∧ inMram 0x101FFFFC = true ∧ inProg 0x13FFFC = true ∧ inSram 0x27FFFC = true ∧ tOn.protHit 0x27FFFC 4 = false ∧
    (tMach 1 0).protHit 0x20002C 4 = true ∧ (tMach 1 0).protHit 0x200030 4 = false ∧ inMatrix 0x18000 = true ∧ inMatrix 0x1FFFC = true ∧ tOn.matrixInUse 8191 = false ∧
    (tActive 64).mirHold 0x18000 = true ∧ (tActive 63).mirHold 0x18000 = false ∧ Regs.wf tOn.regs = true ∧
    (tOn.info 0x14020).kind = .par ∧ (tOn.info 0x14020).rwc = 2 ∧ (tOn.info 0x14020).widx = 0 ∧ (tOn.info 0x14024).widx = 1 ∧
    (let s : State := { tOn with openPairs := [{ base := 0x14020, ini := .spi, words := [7] }] }
     s.openPairs.find? (fun q => q.base = 0x14020) = some { base := 0x14020, ini := .spi, words := [7] } ∧ Initiator.spi ≠ .twi0) := by decide

/-- RegisterWrites: a matrix word in use (context 0 of class L at matrix word 0). -/
theorem witness_matrix_in_use : (∃ w < 8, ({ tOn with regs := [(0x14000, 0x80000000)] } : State).matrixInUse w = true) := ⟨0, by decide, by decide⟩

/-- RegisterReads: absent, unmapped and neither. -/
theorem witness_RegisterReads : tOn.absent 0x50004 = true ∧ tOn.absent 0x60 = false ∧ tOn.absent 0x04 = false ∧ tOn.unmapped 0x04 = true ∧ tOn.unmapped 0x60 = false := by
  decide

/-- A controller set to the link on port 0, the port up. -/
def tLink : State := { tOn with regs := [(0x40, 1), (0x48, 1)], link := { port := (Vector.replicate 4 ({} : StkPortSt)).set 0 { st := 2, far := 9 } }
                                clk := { tOn.clk with mode := true } }

/-- ClockEvents: the way into link mode, and back into it after the 64th tick of a valid stream, each loss, holdover and its end at 10,000 ticks. -/
theorem witness_ClockEvents : (let s : State := { tLink with clk := tOn.clk }
      (s.reg 0x40).toNat % 4 = 1 ∧ s.clk.mode = false ∧ s.clk.pllLock = true ∧ s.clk.holdover = false ∧ 0 < s.nPorts ∧ s.link.port[(0 : Fin 4)].st ≠ 0) ∧
    (let s : State := { tLink with clk := { tOn.clk with fell := true }, now := 63, link := { port := (Vector.replicate 4 ({} : StkPortSt)).set 0 { st := 2, lockAt := some 0 } } }
     s.clk.fell = true ∧ s.link.port[(0 : Fin 4)].lockAt = some 0 ∧ 0 + 63 ≤ s.now ∧ tOn.clk.fell = false) ∧
    tLink.clk.mode = true ∧ tLink.clk.refOk = true ∧ tOn.clk.mode = false ∧ tOn.pr.role ≠ .active ∧ (tActive 0).pr.role = .active ∧
    ({ holdover := true, holdStart := some 0 } : ClkSt).refOk = false ∧
    (let s : State := { tOn with now := 10000, clk := { tOn.clk with holdover := true, holdStart := some 0 } }
     s.clk.holdStart = some 0 ∧ 0 + 10000 ≤ s.now) := by decide

/-- TimeEvents: a follower that hears its parent, offsets at both ends, a delay exchange, each loss, a step and an epoch at a boundary, a wrap. -/
theorem witness_TimeEvents : tLink.isFollower = true ∧ (0 : Fin 4) = tLink.parentPort ∧ tLink.portUp 0 = true ∧ (7 : BitVec 4).toNat < 8 ∧
    ((-2147 : Int) * 1000000 - 483648 + 0 = -2147483648) ∧ tLink.stkLive = true ∧ tLink.timeRole = 1 ∧ tLink.pr.role ≠ .failed ∧ tLink.awake = true ∧
    (((1024 : BitVec 48) - 0).toInt * 1000000 + 500000).fdiv 1000000 ≠ 0 ∧
    (let s : State := { tLink with regs := [(0x40, 1), (0x48, 1), (0xB0100, 0x80000000)] }
     s.stkEn 0 = true ∧ s.link.port[(0 : Fin 4)].st ≠ 0) ∧
    (let s : State := { tLink with time := { freeRun := false, stepPend := true, tick := 1024 }, now := 64 }
     s.time.freeRun = false ∧ s.time.lastTime + 64 ≤ s.now ∧ s.time.stepPend = true ∧ s.isFollower = true ∧ s.cycle = 0 ∧
     (s.time.tick + BitVec.ofInt 48 s.time.ofsN).toNat % 1024 = 0) ∧
    (let s : State := { tOn with time := { epochReq := some 7, sf := true, wrapDue := true } }
     s.time.epochReq = some 7 ∧ s.cycle = 0 ∧ s.time.sf = true ∧ s.time.wrapDue = true ∧ ({ parEpoch := 7 } : TimeSt).parEpoch ≠ s.time.epoch) ∧ tOn.clk.mode = false := by decide

/-! ### Witnesses: sequencer, Firebox, phases and rails -/

/-- A DRAFT_MAP of one entry at 0x0020_0000 (receiver 0, source 5, holder 3), its check sum good or not. -/
def tMap (good : Bool) : State := { tOn with
  mem := memPut [] 0x200000 [5, 0, 1, 0, 24, 0, 0, 0, if good then 0x49 else 0x48, 0x7E, 0x69, 0xF3, 0, 0, 0, 0, 1, 0, 0, 0, 0, 5, 3, 1] }
/-- Its installation asked for, or due. -/
def tJob : InstJob := { addr := 0x200000, len := 24, keep := false }
def tPend (p : SeqPend) : State := { tMap true with seq := { pend := [(p, true)], tbls := [{ typ := 2, id := 255, addr := 0x200100, len := 44, version := 1 }] } }
/-- Context 0 of class C looks up curve 255. -/
def tCurve : State := { tPend (.remove 2 255) with regs := [(0x14000, 0x88000000), (0x14054, 0x000000FF)] }

set_option maxRecDepth 8000 in
/-- SequencerEvents: busy and free, ids at and past the greatest, installed and not, a good and a bad table, each thing due, a timer of each unit. -/
theorem witness_SequencerEvents : tOn.seq.job = none ∧ tOn.mirHold 0xE0004 = false ∧ maxId 2 = some 255 ∧ maxId 1 = some 63 ∧ (64 : Byte).toNat > 63 ∧
    (tPend (.install tJob)).table 2 255 = some { typ := 2, id := 255, addr := 0x200100, len := 44, version := 1 } ∧ tOn.table 2 255 = none ∧
    (tMap true).tblCheck 0x200000 = none ∧ (tMap false).tblCheck 0x200000 = some (1, 8) ∧ inData 0x200000 16 = true ∧
    takeDue (fun p => match p with | .install _ => true | .remove _ _ => false) (tPend (.install tJob)).seq.pend = some (.install tJob, []) ∧ (0 : Nat) = tOn.cycle ∧
    takeDue (fun p => match p with | .install _ => false | .remove _ _ => true) (tPend (.remove 2 255)).seq.pend = some (.remove 2 255, []) ∧
    (tPend (.remove 2 255)).curveUsed 255 = false ∧ (tPend (.remove 5 0)).table 5 0 = none ∧ tCurve.curveUsed 255 = true ∧
    (let t : TimerSt := { run := true, unit := true, left := 0 }
     t.run = true ∧ (if t.unit then t.left = 0 else t.stop ≤ tOn.now)) ∧ ({ run := true, stop := 5 } : TimerSt).stop > tOn.now := by decide

/-- FireboxEvents: a window run out, a re-arm, contexts 47 and 48 of 48, an import, a resume that is due. -/
theorem witness_FireboxEvents : (let s : State := { tCtx with regs := tCtx.regs.take 3 ++ [(0x14020, 0x3F800000), (0x14024, 0xC07FFFFF), (0x1402C, 0xFFFFFFFF), (0x14038, 5)]
                                                              fbx := { ctx := (Vector.replicate 128 ({} : CtxSt)).set 0 { feRun := true, feTicks := 5 } } }
      s.ctxEn 0 = true ∧ s.fbxOn = true ∧ s.fbx.ctx[(0 : Fin 128)].fault = false ∧ s.fbx.ctx[(0 : Fin 128)].ran = false ∧ s.feDue 0 = true ∧ s.feExpired 0 = true ∧ s.cycle = 0) ∧
    tOn.feDue 0 = false ∧ (47 : Fin 128).val < tOn.nCtx ∧ tOn.nCtx ≤ (48 : Fin 128).val ∧ ({ fault := true, rearm := [.spi] } : CtxSt).rearm.getLast? = some .spi ∧ tOn.time.commitDue = false ∧ tShadow.time.commitDue = true ∧
    tPool.stkLive = true ∧ tPool.portUp 0 = true ∧ tOn.cycle = 0 ∧ tF.cycle ≠ 0 ∧
    (let s : State := { tActive 0 with pr := { role := .active, resumeAt := some 0 } }
     s.pr.resumeAt = some 0 ∧ 0 ≤ s.now ∧ s.pr.role = .active) ∧ tOn.pr.resumeAt = none := by decide

/-- Phase 0 of rail 0 in a state of its own, at the start of a tick in which its carrier passes 0; current bounds 1000 to 3000, an open threshold of 100, a pair of 5 watts. -/
def tPh (p : PhaseSt) : State := { tPool with
  regs := [(0x20000, 0x80000000), (0x20020, 0x0BB803E8), (0x20028, 100), (0x20030, 5), (0x20034, ~~~ 5)], now := 10, time := { strobeDue := true, commitDue := true }, phs := { ph := (Vector.replicate 48 ({} : PhaseSt)).set 0 p } }

/-- PhaseEvents: a period that starts and none, stopping, switching, starting, idle; codes at and past the bounds; 31 and 32 counted periods; burned, to burn, without the pair. -/
theorem witness_PhaseEvents : (tPh {}).periodAt 0 = some 192000 ∧ tOn.periodAt 0 = none ∧ ({ began := 192000 } : PhaseSt).began ≥ 192000 ∧
    (let p : PhaseSt := { sw := true, onTime := true, eff := 2048, tmg := 0x0024245A, slope := 100 }
     let deaf := 32 * max (p.tmg.toNat / 256 % 256) (p.tmg.toNat / 65536 % 256)
     deaf = 1152 ∧ 45000 * p.eff.toNat ≤ 45000 * (2046 : BitVec 12).toNat + p.slope.toNat % 4096 * 1152 ∧
     ¬ 45000 * p.eff.toNat ≤ 45000 * (2045 : BitVec 12).toNat + p.slope.toNat % 4096 * 1152 ∧
     deaf < (tPh p).railPer p.car - p.dt.toNat % 4096 - p.dt.toNat / 65536 % 4096 - 32 * (p.tmg.toNat % 256)) ∧ (tPh { stopDue := some 6 }).phs.ph[(0 : Fin 48)].stopDue = some 6 ∧ (tPh { sw := true, onTime := true }).phs.ph[(0 : Fin 48)].sw = true ∧
    (let s := tPh { startDue := true }
     s.periodAt 0 = some 192000 ∧ s.phs.ph[(0 : Fin 48)].startDue = true ∧ s.phRail 0 = some 0 ∧ s.phs.rail[(0 : Fin 16)].startAt + 1 < s.now ∧ RailState.run.active = true) ∧
    (let w := ((tPh {}).reg 0x20020).toNat
     w / 65536 % 4096 < (3001 : BitVec 12).toNat ∧ (999 : BitVec 12).toNat < w % 4096 ∧ ¬ (w / 65536 % 4096 < (3000 : BitVec 12).toNat ∨ (3000 : BitVec 12).toNat < w % 4096)) ∧
    32 ≤ ({ openCnt := 32 } : PhaseSt).openCnt.toNat ∧ ({ openCnt := 31 } : PhaseSt).openCnt.toNat < 32 ∧ (15 : Fin 48).val < tOn.nPhases ∧
    ((tPh {}).reg 0x20028).toNat % 4096 = 100 ∧ tOn.mirHold 0x2004C = false ∧ (tPh { sw := true }).pair 0x20030 = some 5 ∧ tPool.pr.role ≠ .active ∧
    (5 : Word).toNat ≤ (tPh { sw := true }).emb.free.v.toNat ∧ (let s : State := { tOn with regs := [(0x20030, 5)] }
      s.pair 0x20030 = none) := by decide

/-- Rail 0 with phase 0, in a state of its own, at tick 100,000. -/
def tRail (r : RailSt) : State := { tPh { rail := some 0, sw := true } with now := 100000, phs := {
  ph := (Vector.replicate 48 ({} : PhaseSt)).set 0 { rail := some 0, sw := true }, rail := (Vector.replicate 16 ({} : RailSt)).set 0 r } }

/-- RailEvents: a wrap and none, each state whose time has come, and one whose time has not. -/
theorem witness_RailEvents : (tRail {}).wrapAt 0 = some 1920000000 ∧ (tPh {}).wrapAt 0 = some 192000 ∧ tOn.wrapAt 0 = none ∧ (let s := tRail { en := true, state := .softStart }
      s.phs.rail[(0 : Fin 16)].state = .softStart ∧ max 1 ((s.reg 0x23008).toNat % 2 ^ 20) ≤ s.now - s.phs.rail[(0 : Fin 16)].entry ∧
      s.phs.rail[(0 : Fin 16)].en = true ∧ s.phs.rail[(0 : Fin 16)].inhibit = false) ∧
    (let s := tRail { en := true, state := .softStart, entry := 100000 }
     s.now - s.phs.rail[(0 : Fin 16)].entry < max 1 ((s.reg 0x23008).toNat % 2 ^ 20)) ∧
    (let s := tRail { state := .softStop }
     (s.reg 0x2300C).toNat % 2 ^ 20 ≤ s.now - s.phs.rail[(0 : Fin 16)].entry) ∧
    (let s := tRail { en := true, state := .hiccup }
     1000 * ((s.reg 0x23010).toNat % 1024 + 1) ≤ s.now - s.phs.rail[(0 : Fin 16)].entry) ∧
    (let s := tRail { en := true, state := .off, enPending := true, offEnd := 2000 }
     s.phs.rail[(0 : Fin 16)].offEnd ≤ s.now) ∧
    (tRail { state := .run, shedDue := true }).running 0 = [0] ∧ ({ state := .run, burstDue := true, regDue := true } : RailSt).burstDue = true ∧
    ({ state := .burst, regDue := true, retryDue := true } : RailSt).retryDue = true ∧ ¬ (({} : RailSt).en = true) := by decide

/-! ### Witnesses: Draft bus, thermal unit, battery unit -/

/-- Receiver 0 enabled, its map installed; the source's state and the table of entries given. -/
def tDft (maps : List DftMapSt) (p : PendSt) : State := { tMap true with
  now := 20, regs := [(0xD000C, 0x00020003), (0xD0100, 0x80000000)], seq := { tbls := [{ typ := 5, id := 0, addr := 0x200000, len := 24, version := 1 }] }
  dft := { maps := maps, pend := (Vector.replicate 64 ({} : PendSt)).set 63 p } }

set_option maxRecDepth 8000 in
/-- DraftFrames: receivers 7 and 8 of 8, mapped and unmapped sources, shapes 5 and 6, a first, a next, a repeated and a skipped number, an entry of
the source and one in its window, each reason for discarding. -/
theorem witness_DraftFrames : (7 : Fin 32).val < tOn.nDraft ∧ ¬ (8 : Fin 32).val < tOn.nDraft ∧ ((tDft [] {}).reg 0xD0100).getLsbD 31 = true ∧
    (tDft [] {}).mapHolder 0 5 = some 3 ∧ (tDft [] {}).mapHolder 0 6 = none ∧ ((tDft [] {}).mapSt 0 5).seq = none ∧
    (let s := tDft [{ d := 0, src := 5, seq := some 15 }] {}
     (s.mapSt 0 5).seq = some 15 ∧ (s.mapSt 0 5).seq = some ((0 : BitVec 4) - 1) ∧ (s.mapSt 0 5).seq ≠ some 1 ∧ (1 : BitVec 4) ≠ 15 + 1) ∧
    (let p := (tDft [] { valid := true, d := 0, src := 5, seq := 2, s := 15, a := 20 }).dft.pend[(63 : Fin 64)]
     p.valid = true ∧ p.z = none ∧ p.seq.toNat = (2 : BitVec 12).toNat % 16 ∧ (2 : BitVec 12).toNat / 16 = 0 ∧ (0xFF0 : BitVec 12).toNat / 16 = 255 ∧
     (tDft [] p).wStart p ≤ (tDft [] p).now ∧ (tDft [] p).now < p.a + (tDft [] p).wPost) ∧
    (0x9B05000000000000 : BitVec 64).toNat / 2 ^ 56 = 0x9B ∧ crc8 ((leBytes 6 ((0x9B05000000000000 : BitVec 64).toNat / 256 % 2 ^ 48)).reverse) ≠ 0 := by decide

/-- DraftEntries: an announcement of this tick and of an earlier one, an empty and a full table, a grant, each time that comes. -/
theorem witness_DraftEntries : (tDft [] {}).dft.queue = [] ∧ ({ d := 0, src := 5, h := 3, shape := 0, seq := 1, mag := 4, lead := 0, s := 19, sTick := 0 } : AnnSt).s < (tDft [] {}).now ∧
    (let s : State := { tDft [] {} with emb := { tPool.emb with snap := (Vector.replicate 256 (0 : Word)).set 3 30 } }
     s.emb.snap[(3 : Fin 256)].toNat = 30 ∧ ¬ ((8 * (4 : BitVec 16).toInt).natAbs ≤ 30) ∧ (8 * (3 : BitVec 16).toInt).natAbs ≤ 30 ∧ s.dft.pend[(0 : Fin 64)].valid = false) ∧
    (∀ i : Fin 64, (Vector.replicate 64 ({ valid := true } : PendSt))[i].valid = true) ∧
    (let s := tDft [] { valid := true, s := 15, a := 20 }
     let p := s.dft.pend[(63 : Fin 64)]
     p.phase = 0 ∧ p.a - s.wPre ≤ s.now ∧ p.s < s.now) ∧
    (let s := tDft [] { valid := true, s := 15, a := 18 }
     s.dft.pend[(63 : Fin 64)].a + s.wPost ≤ s.now) ∧
    (let p : PendSt := { valid := true, z := some 10, zLen := 10 }
     p.z = some 10 ∧ 10 + p.zLen ≤ (tDft [] {}).now) ∧
    (let s := tDft [{ d := 0, src := 5, live := some 20 }] {}
     (s.mapSt 0 5).live = some 20 ∧ 20 ≤ s.now ∧ (s.mapSt 0 5).down = false ∧ (s.reg 0xD0004).toNat / 65536 % 4096 = 0) ∧
    (let s : State := { tDft [{ d := 0, src := 5, live := some 18 }] {} with regs := [(0xD0004, 0x00020000)] }
     (s.reg 0xD0004).toNat / 65536 % 4096 = 2 ∧ (s.mapSt 0 5).live = some 18 ∧ 18 + 2 ≤ s.now ∧ s.cycle = 0 ∧ ¬ 18 + 3 ≤ s.now) ∧
    tPool.stkLive = true ∧ tPool.portUp 0 = true ∧ tPool.portUp 3 = false ∧
    (let s : State := { tOn with now := 4, regs := [(0xD00A0, 0x80000000)], dft := { fwd := (Vector.replicate 4 ({} : FwdSt)).set 3 { at_ := some 0 } } }
     (s.reg 0xD00A0).toNat / 2 ^ 30 = 2 ∧ s.dft.fwd[(3 : Fin 4)].at_ = some 0 ∧ 0 + 4 ≤ s.now) ∧
    (let s : State := { tOn with now := 4, regs := [(0xD00A0, 0x43000000)], dft := { vpp := some (0, 0, 0) } }
     (s.reg 0xD00A0).toNat / 2 ^ 30 = 1 ∧ (s.reg 0xD00A0).toNat / 2 ^ 24 % 4 = 3 ∧ 0 + 4 ≤ s.now) := by decide

/-- Zone 0 enabled with sensors 31 and 32, its thresholds 100, 200 and 50; a measurement under way. -/
def tThm (stop : Option Nat) (z : ZoneSt) : State := { tOn with
  now := 64, regs := [(0x40400, 0x80000000), (0x40404, 0x80000000), (0x40408, 1), (0x4040C, 100), (0x40410, 200), (0x40414, 50)]
  thm := { queue := [31], stop := stop, res := (Vector.replicate 40 (none : Option Half)).set 39 (some 0x7FFF), zone := (Vector.replicate 8 ({} : ZoneSt)).set 0 z } }

/-- ThermalUnit: a request to start, a measurement that has ended and one that has not, values at both ends of the range and past them, levels 0 to 2, members,
a grace run out, the four refusals of a substitution. -/
theorem witness_ThermalUnit : Regs.wf (tThm none {}).regs = true ∧ (tThm none {}).thm.queue ≠ [] ∧ (tThm none {}).cycle = 0 ∧ (tThm none {}).awake = true ∧ (tThm (some 64) {}).thm.stop = some 64 ∧
    64 ≤ (tThm none {}).now ∧ (tThm none {}).now < 65 ∧ ¬ ((-8192 : Int) < -8192) ∧ (-8193 : Int) < -8192 ∧ (25599 : Int) < 25600 ∧ ¬ ((25599 : Int) < 25599) ∧
    ((tThm none {}).reg 0x40404).getLsbD 31 = true ∧ ((tThm none {}).reg 0x40408).getLsbD 0 = true ∧ ((tThm none {}).reg 0x40404).getLsbD 30 = false ∧
    (((tThm none {}).reg 0x4040C).setWidth 16 : BitVec 16).toInt = 100 ∧ ({ grace := some 64, level := 1 } : ZoneSt).grace = some 64 ∧
    (tThm none {}).mirHold 0x40400 = false ∧ (tThm none {}).thm.res[(39 : Fin 40)] = some 0x7FFF ∧ 40 ≤ (40 : BitVec 6).toNat ∧ (39 : BitVec 6).toNat < 40 := by decide

/-- Sixteen strings are present (11 feature bits). -/
def tBat (k : StrSt) : State := { tOn with now := 9, feat := 0xC0, bat := { str := (Vector.replicate 16 ({} : StrSt)).set 15 k } }

/-- AcLossAndBattery, the inputs: asserted and not, a ramp under way and one that has ended; one entry for a context. -/
theorem witness_AcLoss : (let s : State := { tOn with pins := { acfail := 2 }, regs := [(0xD0060, 0x80000105), (0xD0064, 0x3F800000)] }
      s.pins.acfail.getLsbD 1 = true ∧ s.dft.acf.getLsbD 1 = false ∧ (s.reg 0xD0060).getLsbD 31 = true ∧ (s.reg 0xD0060).toNat % 128 = 5 ∧
      (s.reg 0xD0060).toNat / 256 % 2 = 1 ∧ ∀ f : Fin 4, f ≠ 0 → (s.reg (0xD0060 + 8 * f.val)).getLsbD 31 = false) ∧
    (let s : State := { tOn with now := 1002, dft := { acf := 3, rel := (Vector.replicate 2 (none : Option Nat)).set 0 (some 2) } }
     s.pins.acfail.getLsbD 0 = false ∧ s.dft.acf.getLsbD 0 = true ∧ s.dft.rel[(0 : Fin 2)] = some 2 ∧ 2 + max 1 ((s.reg 0xD0080).toNat % 65536) ≤ s.now) ∧
    tOn.dft.rel[(1 : Fin 2)] = none := by decide

set_option maxRecDepth 8000 in
/-- AcLossAndBattery, the strings and ship mode: each thing due and not; the sixteenth string; a rest point without a curve; both keys. -/
theorem witness_Battery : Regs.wf (tBat {}).regs = true ∧ (15 : Fin 16).val < (tBat {}).nStrings ∧ (tBat {}).openPairs = [] ∧
    (tBat { qsetDue := some (5, 8) }).bat.str[(15 : Fin 16)].qsetDue = some (5, 8) ∧ 8 < (tBat {}).now ∧ (tBat {}).cycle = 0 ∧
    (tBat { fullDue := true }).bat.str[(15 : Fin 16)].fullDue = true ∧ ({ cutDue := true } : StrSt).qBad = false ∧
    ({ restDue := true } : StrSt).fullDue = false ∧ ((tBat {}).table 2 (((tBat {}).reg 0x51F60).toNat / 65536 % 256)) = none ∧
    (tBat {}).nStrings ≠ 0 ∧ (tBat {}).mirHold 0x50008 = false ∧ (let rail := (tBat {}).reg 0xD0084
      rail.getLsbD 31 = false) ∧ (0xA5 : Byte) ≠ 0xA4 ∧ ({ enterReq := some 8 } : BatSt).enterReq = some 8 ∧ ({ releaseReq := some 8 } : BatSt).releaseReq = some 8 ∧
    ({ ship := true, chgRun := 100000 } : BatSt).chgRun = 1000 * max 1 (((tBat {}).reg 0x50008).toNat / 256 % 256) := by decide

/-! ### Witnesses: recorder, store, fuses -/

/-- A recorder with one record staged at the ring's last 16 bytes, which it does not fit. -/
def tLog : State := { tOn with log := { head := 262128, tail := 262128, staged := [{ bytes := List.replicate 20 1, sev := 3, seq := 9, evict := 0 }] } }
/-- The window of entry 63, its record over the limit. -/
def tWin (w : RateWin) : State := { tOn with now := 9, log := { win := (Vector.replicate 64 ({} : RateWin)).set 63 w } }
/-- A black box enabled with no log pages, PFAIL_N sampled, energy for `n` groups. -/
def tBb (n : Nat) (b : BbSt) : State := { tOn with regs := [(0x70500, 0x80000000)], pins := { pfail := true }, nvm := { ng := n }, log := { bb := b } }

/-- RecorderAndBlackBox: nothing staged and a record that needs a pad; windows open, expired, with and without suppressed records; positions at
the head, before and past it; energy for 12 and for 13 pages; the gate for the consumed word. -/
theorem witness_RecorderAndBlackBox : Regs.wf tLog.regs = true ∧ Memory.wf tLog.mem = true ∧ tLog.log.posted = [] ∧ tOn.log.staged = [] ∧
    (∀ r ∈ tLog.log.staged, r.evict ≤ tLog.log.ents.length) ∧ 262128 + 20 > 262144 ∧
    ({ isOpen := true, stop := 9 } : RateWin).stop ≤ (tWin {}).now ∧ (tWin {}).now < ({ isOpen := true, stop := 10 } : RateWin).stop ∧
    ({ isOpen := true, supp := 1 } : RateWin).supp ≠ 0 ∧ (tWin {}).log.owed = [] ∧
    (let l : LogSt := { head := 262144, tail := 0 }
     l.tail < l.head ∧ (0 : Word).toNat % 262144 = l.head % 262144 ∧ (262140 : Word).toNat % 262144 ≠ l.head % 262144 ∧ 262140 ≤ l.head) ∧
    (let l : LogSt := { head := 16, tail := 0 }
     (20 : Word).toNat % 262144 ≠ l.head % 262144 ∧ l.head < 20 ∧ 20 < l.tail + 262144) ∧
    (let s := tBb 130 {}
     s.pins.pfail = true ∧ s.log.bb.armed = true ∧ (s.reg 0x70500).getLsbD 31 = true ∧ s.cycle = 0 ∧ s.log.bb.busy = false ∧ 13 ≤ (s.nvm.ng - s.nvLeft) / 10) ∧
    ((tBb 129 {}).nvm.ng - (tBb 129 {}).nvLeft) / 10 < 13 ∧ ({ busy := true, sealDone := true } : BbSt).sealDone = true ∧
    (let s : State := { tOn with nvm := { ng := 3 }, log := { bb := { consumeDue := some 5 } } }
     s.log.bb.consumeDue = some 5 ∧ s.pins.pfail = false ∧ s.gQ + 3 ≤ s.nvm.ng) := by decide

/-- A page write of partition-free page 0 waiting, or under way since tick 0, at tick `t`, with energy for `n` groups. -/
def tNv (cur : Bool) (t n : Nat) : State :=
  let w : NvWrite := { src := .thB, off := 0, data := List.replicate 64 1 }
  { tOn with now := t, nvm := { ng := n, cur := if cur then some w else none, queue := if cur then [] else [w] } }
/-- Partition 2 of pages 100 to 131, both passwords 0, its tries so far. -/
def tPart (k : Nat) : State := { tOn with
  nvm := { part := (Vector.replicate 8 ({} : PartSt)).set 2 { en := true, rpw := true, wpw := true, first := 100, count := 32, fails := k, lockout := decide (5 ≤ k) } }
  regs := [(0x80120, 0x80000064), (0x80124, 1)] }

/-- NonVolatileStore, pages: locked, full, gated; a write started and one without the energy; done at its tenth tick; a partition's definition at the end. -/
theorem witness_NonVolatileStore_pages : Memory.wf tOn.mem = true ∧ tOn.nvLocked .spi 32752 = true ∧ tOn.nvLocked .spi 32751 = false ∧ (tPart 0).nvLocked .spi 131 = true ∧
    (tPart 0).nvLocked .spi 132 = false ∧ tOn.nvPages < 16 ∧ tOn.nvm.ng < tOn.gQ + 10 ∧ (tNv false 0 10).nvm.queue.length = 1 ∧ (tNv false 0 10).nvm.cur = none ∧
    (tNv false 0 10).log.bb.queue = [] ∧ (∀ w ∈ (tNv false 0 10).nvm.queue, w.groups ≤ 10 ∧ 9 < w.groups) ∧ (tNv true 9 0).nvm.cur ≠ none ∧
    (∀ w ∈ (tNv true 9 0).nvm.cur.toList, (tNv true 9 0).now < (tNv true 9 0).nvm.curAt + w.groups) ∧
    (tNv false 0 10).awake = true ∧ ({ tNv false 0 10 with pwr := { state := 2 } } : State).awake = false ∧
    (∀ w ∈ (tNv true 10 0).nvm.cur.toList, (tNv true 10 0).nvm.curAt + w.groups ≤ (tNv true 10 0).now ∧ w.off < 0x1FFC00) ∧ tOn.boot.rstPend = none ∧
    (let d : PartDef := { en := true, rpw := false, wpw := false, first := 1, count := 1, rdPw := 0, wrPw := 0 }
     let s : State := { tOn with nvm := { defs := [(2, d)] } }
     (s.nvm.defs.find? fun x => x.1 = 2) = some (2, d) ∧ NvSrc.define 2 ≠ .thB ∧ (∃ q ∈ s.nvm.defs, q.1 ≠ 3 ∧ q.2.en = true) ∧ tOn.nvm.defs = []) ∧
    NvSrc.journalClear 15 ≠ .thB := by decide

/-- NonVolatileStore, scrubbing: due with no error, a corrected and an uncorrectable one in the last group; not due. -/
theorem witness_NonVolatileStore_scrub : (∀ e ∈ [none, some EccErr.corr, some .uncorr],
    let s : State := { tOn with regs := [(0x80004, 5)], now := 5, nvm := { scrubPos := 262143 }, ecc := (e.map fun x => (0x101FFFF8, x)).toList }
    (s.reg 0x80004).toNat % 65536 ≠ 0 ∧ s.nvm.scrubAt + (s.reg 0x80004).toNat % 65536 ≤ s.now ∧ s.nvm.queue = [] ∧ s.nvm.cur = none ∧ s.log.bb.queue = [] ∧
    s.pins.pfail = false ∧ sget s.ecc (0x10000000 + 8 * (s.nvm.scrubPos % 262144)) = e) := by decide

/-- NonVolatileStore, partitions: the fourth failure and the fifth, locked out, passwords right and wrong; definitions shut, bad and good. -/
theorem witness_NonVolatileStore_partitions : (tPart 4).nvm.part[(2 : Fin 8)].lockout = false ∧ (tPart 4).nvm.part[(2 : Fin 8)].fails + 1 = 5 ∧
    (tPart 5).nvm.part[(2 : Fin 8)].lockout = true ∧ (tPart 0).nvm.part[(2 : Fin 8)].rpw = true ∧ (tPart 0).nvm.part[(3 : Fin 8)].rpw = false ∧
    (tPart 0).nvm.part[(2 : Fin 8)].wpw = true ∧ (tPart 0).nvm.part[(2 : Fin 8)].unlHostW = false ∧ ((tPart 0).reg 0x80124).setWidth 16 ≠ (0 : BitVec 16) ∧
    100 + 1 ≤ 32752 ∧ (100 < 100 + 32 ∧ 100 < 100 + 1) ∧ 32752 < 32752 + 1 := by decide

/-- NonVolatileStore, A/B records: free, registered, at the end of the user pages, meeting; busy; both copies invalid on an erased store. -/
theorem witness_NonVolatileStore_records : tOn.nvm.ab[(15 : Fin 16)].en = false ∧ 32744 + 8 ≤ 32752 ∧ 32752 < 32745 + 8 ∧
    ({ en := true, busy := true, pageB := 8 } : AbSt).busy = true ∧ tOn.nvPages < 16 ∧ tOn.pins.pfail = false ∧ tOn.nvm.ng < tOn.gQ + 3 ∧
    (let s : State := { tOn with nvm := { ng := 3 } }
     s.gQ + 3 ≤ s.nvm.ng) ∧ ¬ (0 < 8 + 8 ∧ 8 < 0 + 8) ∧
    (1 ≤ ((0 : Word) - 0xFFFFFFFF).toNat ∧ ((0 : Word) - 0xFFFFFFFF).toNat < 2 ^ 31) ∧ ¬ (1 ≤ ((5 : Word) - 5).toNat) ∧
    ({ journal := (Vector.replicate 16 (none : Option Journal)).set 15 (some { copyB := true, tick := 0 }) } : NvmSt).journal[(15 : Fin 16)] = some { copyB := true, tick := 0 } := by
  decide

/-- FuseArray: busy and free, each status of PROGRAM, tries at 0 and 15, an attempt at its end and a tick before, the last one of its command, one that PFAIL_N stops at, the screen at 512. -/
theorem witness_FuseArray : tOn.boot.rstPend = none ∧ tOn.otp.cmd = none ∧ ({ cmd := some .screen } : OtpSt).cmd ≠ none ∧ tOn.pins.pfail = false ∧
    tOn.otp.data[(240 : Fin 256)].getLsbD 15 = false ∧ ({ region := (Vector.replicate 16 (0 : BitVec 2)).set 15 2 } : OtpSt).region[(15 : Fin 16)] = 2 ∧
    tOn.otp.region[(15 : Fin 16)] ≠ 2 ∧ (1 : Word) &&& ~~~ tOn.reg 0x90008 ≠ 0 ∧ (0 : Word) &&& ~~~ tOn.reg 0x90008 = 0 ∧
    (let s : State := { tOn with now := 24, otp := { cmd := some (.program 240 8 4) } }
     s.otp.cmd = some (.program 240 8 4) ∧ s.otp.cmdStop = 0 ∧ 1 ≤ (1 : BitVec 4).toNat ∧ s.otp.cmdAt + 24 * (1 : BitVec 4).toNat ≤ s.now ∧ (4 : Word) &&& ~~~ 4 = 0 ∧ ¬ s.otp.cmdAt + 24 * (2 : BitVec 4).toNat ≤ s.now) ∧
    (8 : BitVec 4).toNat = 8 ∧ ({ cmd := some (.program 240 8 4), cmdStop := 3, cmdPfail := true } : OtpSt).cmdStop = (3 : BitVec 4).toNat ∧ (let s : State := { tOn with now := 512, otp := { cmd := some .screen } }
      s.otp.cmdAt + 512 ≤ s.now) := by decide

/-! ### Witnesses: ports, link, pair, power -/

/-- TWI0 an enabled target; a PMBUS_MAP of one word at register 0x60, code 0x20, readable and writable. -/
def tTwi : State := { tOn with
  regs := [(0xA0000, 0xC0000000)], mem := memPut [] 0x200010 [1, 0, 0, 0, 0x20, 1, 3, 4, 0x60]
  seq := { tbls := [{ typ := 3, id := 0, addr := 0x200000, len := 32, version := 1 }] } }

/-- TWI0 no target. -/
def tDeaf : State := { tOn with regs := [(0xA0000, 0x80000000)] }

/-- PmbusCommands: answered and not; blocks of 4 and 32 bytes and of wrong length; a good PEC and none where it is not required; a queue that is full and one that is served; an alert; a mapped code, one that
is not, and one that hardware serves. -/
theorem witness_PmbusCommands : Regs.wf tTwi.regs = true ∧ (tTwi.reg 0xA0000).getLsbD 31 = true ∧ (tTwi.reg 0xA0000).getLsbD 30 = true ∧
    tTwi.twi[(0 : Fin 3)].asleep = false ∧ tDeaf.answers 0 = false ∧ tTwi.answers 0 = true ∧ tTwi.host.queue = [] ∧
    8 ≤ (List.replicate 8 (HostTxn.emb 0 0 0)).length ∧ (tTwi.reg 0xA0000).getLsbD 27 = false ∧ tTwi.host.ptr.toNat % 4 = 0 ∧
    (let n := ([0, 0, 0x20, 0, 32] : List Byte).getD 4 0 |>.toNat
     n ≤ 32 ∧ n % 4 = 0 ∧ 4 ≤ n) ∧ ¬ (([0, 0, 0x20, 0, 33] : List Byte).getD 4 0 |>.toNat) ≤ 32 ∧ leNat (([1, 3, 0, 0, 5, 0, 0, 0] : List Byte).drop 2 |>.take 2) = 0 ∧
    (tTwi.mapEnt 0 0x20).2 = some { ports := 1, flags := 3, len := 4, addr := 0x60, xform := 0, expo := 0 } ∧ (tTwi.mapEnt 0 0x21).2 = none ∧
    (0xD0 : Byte) ∈ ([0x03, 0x78, 0x79, 0x7D, 0x7E, 0x80, 0x98, 0x99, 0x9A, 0xD0, 0xD1, 0xD2, 0xD3] : List Byte) ∧
    (let s : State := { tTwi with host := { queue := [.poke 0x60 4 5] } }
     s.host.queue = .poke 0x60 4 5 :: [] ∧ s.mirHold 0x60 = false) ∧ ({ queue := [.status 0x80 1] } : HostSt).queue = .status 0x80 1 :: [] := by decide

set_option maxRecDepth 8000 in
/-- PmbusCommands: reads are served with no command queued; a queue of 8 makes room, and one whose first command waits for the mirror does not. -/
theorem witness_PmbusCommands_queue : (tTwi.wakeSeen 0).hostDrain.host.queue = [] ∧ (tTwi.wakeSeen 0).host.queue.length < 8 ∧
    (let s : State := { tActive 64 with regs := [(0xC0000, 0x00400000), (0xA0000, 0xC0000000)], host := { queue := List.replicate 8 (.poke 0x18000 4 5) } }
     s.answers 0 = true ∧ 8 ≤ s.host.queue.length ∧ 8 ≤ ((s.wakeSeen 0).hostExec).host.queue.length ∧ (s.wakeSeen 0).hostDrain.host.queue ≠ []) := by
  decide

/-- PmbusCommands: an own code on a port that answers, with room in the host queue. -/
theorem witness_PmbusCommands_own : tTwi.answers 0 = true ∧ tTwi.host.queue.length < 8 := by decide

/-- PmbusCommands: an alert. -/
theorem witness_PmbusCommands_alert : ({ tTwi with host := { stWord := 0x40 } } : State).alertN = true ∧ tTwi.alertN = false := by decide

set_option maxRecDepth 20000 in
/-- TwoWireAndSpi: a port that drives and one that does not, block lengths 0, 32 and 33, ends of each protocol, retries at their limit, a target asleep; the SPI buffer empty and
in use. -/
theorem witness_TwoWireAndSpi : (let s : State := { tOn with regs := [(0xA2000, 0xA0020000)] }
      (s.reg 0xA2000).getLsbD 31 = true ∧ (s.reg 0xA2000).getLsbD 29 = true ∧ s.pr.role ≠ .syncing ∧ s.pr.role ≠ .failed ∧ (s.reg 0xA2000).toNat / 65536 % 256 = 2 ∧
      s.twi[(2 : Fin 3)].cx = none ∧ Regs.wf s.regs = true) ∧ 32 < (33 : BitVec 6).toNat ∧ ¬ 32 < (32 : BitVec 6).toNat ∧
    ({ cx := some { proto := 7, pec := true, addr := 0x20, code := 1, len := 0 }, cxLoss := 2, cxOn := true } : TwiSt).cxOn = true ∧ ({} : TwiSt).cxOn = false ∧ (3 : Nat) ≠ 2 ∧
    tTwi.twiTarget 0 = true ∧ tTwi.twi[(0 : Fin 3)].asleep = false ∧ tOn.enfOnBus = false ∧ (tRev .enforce true).enfOnBus = true ∧ (tTwi.reg 0xA0000).getLsbD 31 = true ∧
    (({ tOn with regs := [(0xA1000, 0)] } : State).reg 0xA1000).getLsbD 31 = false ∧
    (let s : State := { tTwi with twi := (Vector.replicate 3 ({} : TwiSt)).set 0 { asleep := true } }
     s.twi[(0 : Fin 3)].asleep = true ∧ s.twiTarget 0 = true) ∧ tDeaf.twiTarget 0 = false ∧ tOn.spi.buf = [] ∧
    ({ buf := [(0x60, 5)] } : SpiSt).buf ≠ [] ∧ tOn.mirHold 0x60 = false ∧ (tActive 64).mirHold 0x2004C = true := by decide

/-- Node 5, its port 0 in state `st` with far end 9 and frame 3 sent. -/
def tStk (st : BitVec 2) : State := { tOn with
  now := 9, regs := [(0xB0004, 5), (0xB0008, 0x80000002)]
  link := { port := (Vector.replicate 4 ({} : StkPortSt)).set 0 { st := st, far := 9, sent := [(3, Vector.replicate 4 1)], stall := Vector.replicate 4 2 } } }

/-- StackLink: each state of the port, an acknowledged frame, far ends with and without a way, a stall at its limit. -/
theorem witness_StackLink : Regs.wf (tStk 2).regs = true ∧ (tStk 2).pr.role ≠ .syncing ∧ (tStk 2).awake = true ∧ (0 : Fin 4).val < (tStk 2).nPorts ∧ ¬ (1 : Fin 4).val < (tStk 2).nPorts ∧
    (tStk 2).link.port[(0 : Fin 4)].st = 2 ∧ ((tStk 1).reg 0xB0100).getLsbD 31 = true ∧ ((tStk 2).reg 0xB0004).toNat % 16384 = 5 ∧
    (tStk 1).link.port[(0 : Fin 4)].st ≠ 0 ∧ tOn.link.port[(3 : Fin 4)].st = 0 ∧ (tStk 2).cluRole ≠ 2 ∧ (tStk 2).link.port[(0 : Fin 4)].sent = [] ++ (3, Vector.replicate 4 1) :: [] ∧ (∀ x ∈ (tStk 2).link.port[(0 : Fin 4)].sent, x.1 ≠ 4) ∧
    (tStk 2).route 9 = some 0 ∧ (tStk 2).route 10 = none ∧ max 1 (((tStk 2).reg 0xB0008).toNat % 65536) ≤ (tStk 2).link.port[(0 : Fin 4)].stall[(3 : Fin 4)] := by decide

/-- StackLink: a message for this node whose check sum holds, one whose does not; a stale import at its limit. -/
theorem witness_StackLink_messages : (let m := mkMsg 1 0x40 5 9 []
     mClass m = 1 ∧ mCrcOk m = true ∧ (mDest m).toNat = 5 ∧ (mType m).toNat = 0x40) ∧ mCrcOk (mkMsg 4 0 0 9 [] ^^^ 1) = false ∧
    (let s : State := { tOn with regs := [(0xB000C, 7)], fbx := { imp := (Vector.replicate 32 ({} : ImpSt)).set 31 { never := false, age := 7 } } }
     (s.reg 0xB000C).toNat % 65536 = 7 ∧ s.fbx.imp[(31 : Fin 32)].never = false ∧ 7 ≤ s.fbx.imp[(31 : Fin 32)].age.toNat ∧ s.link.impStale.getLsbD 31 = false) := by decide +kernel

/-- A member of a pair in a role. -/
def tPair (p : PairSt) : State := { tOn with feat := 0x100, pr := p }

/-- PairUnit: both roles of a standby, a grant at a boundary, frames that are taken and not, the key's role, a lost link, the windows at 0. -/
theorem witness_PairUnit : Regs.wf (tPair {}).regs = true ∧ ({ role := .syncing } : PairSt).role = .syncing ∧ (tPair { role := .synced }).mirrorsIn = true ∧
    tOn.mirrorsIn = false ∧ frOk [] = false ∧ frHeadOk [] = false ∧ leNat ((([0, 0, 0x60] : List Byte).drop 10).take 2) = 0 ∧
    (([0, 0, 0x60] : List Byte).getD 2 0).getLsbD 5 = true ∧ ({ rx := some [0, 0, 0x60], snapSeen := true } : PairSt).downDue = none ∧
    ({ downDue := some 4, role := .active, solo := true } : PairSt).solo = true ∧ (tPair {}).hasPair = true ∧ (tPair {}).awake = true ∧
    ({ leadWin := some 0, parWin := some 0, leadTake := some 0 } : PairSt).leadTake = some 0 ∧
    (let s : State := { tPair { role := .synced, swapAnn := true } with pins := { witGrant := true } }
     s.pins.witGrant = true ∧ s.cycle = 0 ∧ s.time.tick.toNat % 1024 = 0) := by decide

/-- PairUnit, swaps: planned more than three ticks ahead, three ticks ahead, and due. -/
theorem witness_PairUnit_swap : (tPair { role := .active, swapAt := some 1024 }).swapPlan = some 1024 ∧
    (let s : State := { tPair { role := .active, swapAt := some 1024 } with now := 1021 }
     s.swapPlan = some 1024 ∧ 1024 = s.now + 3 ∧ s.pr.swapAnn = false ∧ s.pr.imgMm = false ∧ s.clk.holdover = false) ∧
    (let s := tPair { role := .active, swapAt := some 0, swapAnn := true }
     s.pr.swapAt = some 0 ∧ 0 ≤ s.now ∧ s.cycle = 0) := by decide

/-- PairUnit, the witness: no grant, one, both during a swap; heartbeats fresh at 2 and 3 ticks and gone at 4. -/
theorem witness_PairUnit_witness : (let w : WitSt := { grantA := true, aliveA := some 0, aliveB := some 0 }
    w.swapping = false ∧ w.grantA = true ∧ w.grantB = false ∧ 2 < 0 + 3 ∧ ¬ 3 < 0 + 3 ∧ 3 < 0 + 4 ∧ ¬ 4 < 0 + 4) ∧
    (let w : WitSt := { grantA := true, grantB := true, swapping := true, swapNew := .B }
     w.swapping = true ∧ Ctl.B = w.swapNew ∧ w.grantB = true) ∧ ({} : WitSt).grantA = false := by decide

/-- Bytes 2 to 15 of a frame of the active: its flags and number, and the check sum of the header. -/
def tHead : List Byte := [0x40, 1, 0, 0, 0, 0, 0, 0, 0, 0, 0, 0, 0xF0, 0x81]
/-- 48 bytes of an empty body. -/
def tBody : List Byte := List.replicate 48 0
/-- The whole frame. -/
def tFrame : List Byte := 0 :: 0 :: (tHead ++ tBody ++ tBody ++ tBody ++ tBody ++ tBody ++ tBody ++ tBody ++ tBody ++ tBody ++ tBody) ++ [0x16, 0x92, 0x2B, 0x36]

/-- The frame's check sum, 48 bytes at a time. -/
theorem test_crc32_chunks : tHead.foldl crc32Step 0xFFFFFFFF = 0x3C68FA47 ∧ tBody.foldl crc32Step 0x3C68FA47 = 0xEA12D619 ∧
    tBody.foldl crc32Step 0xEA12D619 = 0xD2F17471 ∧ tBody.foldl crc32Step 0xD2F17471 = 0x479C5FC8 ∧ tBody.foldl crc32Step 0x479C5FC8 = 0x89A25DB0 ∧
    tBody.foldl crc32Step 0x89A25DB0 = 0xDD823FFC ∧ tBody.foldl crc32Step 0xDD823FFC = 0xA1E9CC7C ∧ tBody.foldl crc32Step 0xA1E9CC7C = 0xBD53E4E8 ∧
    tBody.foldl crc32Step 0xBD53E4E8 = 0x088DD9D5 ∧ tBody.foldl crc32Step 0x088DD9D5 = 0xAEADE257 ∧ tBody.foldl crc32Step 0xAEADE257 = 0xC9D46DE9 := by
  decide +kernel

/-- PairUnit: a frame of the active whose check sums hold. -/
theorem witness_PairUnit_frame : frOk tFrame = true ∧ (tFrame.getD 2 0).toNat / 64 = 1 := by
  have h : (tFrame.drop 2).take 494 = tHead ++ tBody ++ tBody ++ tBody ++ tBody ++ tBody ++ tBody ++ tBody ++ tBody ++ tBody ++ tBody := by decide +kernel
  obtain ⟨h0, h1, h2, h3, h4, h5, h6, h7, h8, h9, h10⟩ := test_crc32_chunks
  refine ⟨?_, by decide +kernel⟩
  unfold frOk
  rw [h, crc32]
  simp only [List.foldl_append, h0, h1, h2, h3, h4, h5, h6, h7, h8, h9, h10]
  decide +kernel

/-- The waking states of boot: a stage each, with a cause of reset. -/
def tBoot (b : BootSt) : State := { State.reset with boot := b }

set_option maxRecDepth 8000 in
/-- StartupAndPower, resets and boot: idle and a page write under way, both keys, a wake due and not, each stage, an erased store, a witness and a pair and neither, the array sensed and not, a reset by RESET_N that waits, a word being programmed, the window's end
with and without the grant. -/
theorem witness_StartupAndPower_boot : Memory.wf State.reset.mem = true ∧ State.reset.log.posted = [] ∧ State.reset.log.held = [] ∧
    ({ seen := true } : OtpSt).seen = true ∧ State.reset.otp.seen = false ∧ ({ stage := .done, rstPend := some 1 } : BootSt).rstPend = some 1 ∧
    ({ cmd := some (.program 1 8 4) } : OtpSt).cmd = some (.program 1 8 4) ∧ (∀ w ∈ (tNv true 9 0).nvm.cur.toList, w.src ≠ .define 0 ∧ w.src ≠ .journalClear 0 ∧ w.abLast ≠ some 0) ∧ State.reset.nvm.cur = none ∧ State.reset.otpBusy = false ∧ (tNv true 9 0).nvm.cur ≠ none ∧
    State.reset.boot.rstPend = none ∧ ({ wakeReset := some 0 } : BatSt).wakeReset = some 0 ∧ State.reset.boot.stage = .pll ∧ State.reset.boot.held = false ∧
    ({ cause := 1 } : BootSt).cause ≠ 0 ∧ (tBoot { stage := .image }).imgNum 0 4 ≠ 0x4C484B48 ∧ (tBoot { stage := .blackBox }).bbSlot false = none ∧
    (tBoot { stage := .blackBox }).hasPair = false ∧ (let s : State := { tBoot { stage := .blackBox } with feat := 0x100, regs := [(0xC0000, 0x40000000)] }
      s.hasPair = true ∧ (s.reg 0xC0000).getLsbD 30 = true) ∧
    (let s : State := { tBoot { stage := .role, roleEnd := some 2000 } with now := 2000 }
     s.boot.roleEnd = some 2000 ∧ 2000 ≤ s.now ∧ s.pins.witGrant = false) ∧ ({ witGrant := true } : PinSt).witGrant = true ∧
    (∀ r : Fin 16, (Vector.replicate 256 (0 : Word))[(Fin.ofNat 256 (16 * r.val))] = 0) ∧ (tBoot { stage := .start }).pr.role = .unpaired ∧
    (tPair { role := .syncing }).pr.role ≠ .active := by decide

/-- StartupAndPower, power states: requests of each state from each, rails off and on, settled and not, a wake due. -/
theorem witness_StartupAndPower_power : (let s : State := { tOn with now := 9, pwr := { state := 1, req := some (2, 8) } }
      s.pwr.req = some (2, 8) ∧ s.cycle = 0 ∧ 8 < s.now ∧ s.pwr.busy = false ∧ s.pr.role = .unpaired ∧ s.nvm.cur = none ∧ s.nvm.queue = [] ∧ s.pwr.wakeDue = 0) ∧
    (∀ g : Fin 16, tOn.phs.rail[g].state = .off) ∧ ¬ (∀ g : Fin 16, (tRail { state := .run }).phs.rail[g].state = .off ∨ (tRail { state := .run }).phs.rail[g].state = .latched) ∧
    tOn.bat.ship = true ∧ ({ busy := true, settleEnd := 20 } : PwrSt).settleEnd = 20 ∧
    (let s : State := { tOn with regs := [(0x90, 0x40)], pwr := { state := 2 } }
     s.pwr.state = 2 ∧ s.cycle = 0 ∧ (s.reg 0x90).getLsbD 6 = true) := by decide

/-! ### Witnesses: clauses of the shared statements -/

/-- LoadsAndStoresThatTrap: a word with an uncorrectable error, the first and last protected words of a table in use. -/
theorem witness_LoadsAndStoresThatTrap_errors : (let s : State := { tG .B tOn 0x27FFFC with ecc := [(0x27FFFC, .uncorr)] }
     s.Ready .B 2 ∧ sget s.ecc (0x27FFFF - 0x27FFFF % 4) = some .uncorr ∧ inSram 0x27FFFF = true) ∧
    (tG .B (tMach 1 0) 0x200000).Ready .B 2 ∧ (tMach 1 0).protHit 0x200000 4 = true ∧ (tMach 1 0).protHit 0x20002F 1 = true ∧
    (tMach 1 0).protHit 0x200030 1 = false ∧ inSram 0x20002F = true := by unfold State.Ready; decide +kernel

/-- FpOperandRules, the roundings: exact, an exact zero, flushed, too large, a tie, a square root that is exact. -/
theorem witness_FpOperandRules_rounding : fpAdd 0x3F800000 0x3F800000 = (0x40000000, 0) ∧ fpSub 0x3F800000 0x3F800000 = (0, 0) ∧
    fpMul 0x00800000 0x3F000000 = (0, 0x03) ∧ fpMul 0x7F000000 0x40000000 = (0x7F800000, 0x05) ∧ fpAdd 0x3F800000 0x33800000 = (0x3F800000, 0x01) ∧
    (fpSqrt 0x40800000) = (0x40000000, 0) := by decide +kernel

/-- A safe state of each action: the limit of 1 overrun and the action in SYS_FRAME_CFG, thread F live. -/
def tSafe (action : Word) (p : PairSt) : State := { tF with regs := [(0x60, 0x00010001 ||| action <<< 8)], pr := p }

/-- OverrunsAndWatchdog, the actions: freeze, soft and hard of a controller that is no active, and an active. -/
theorem witness_OverrunsAndWatchdog_actions : (tSafe 0 {}).reg 0x60 = 0x00010001 ∧ (tSafe 1 {}).reg 0x60 = 0x00010101 ∧
    (tSafe 2 {}).reg 0x60 = 0x00010201 ∧ (tSafe 3 {}).reg 0x60 = 0x00010301 ∧ (0x00010201 : Word).toNat / 256 % 4 = 2 ∧
    max 1 ((0x00010301 : Word).toNat / 65536 % 256) ≤ min 255 (((tSafe 3 {}).stk.ovrConsec).toNat + 1) ∧
    (tSafe 3 {}).stk.safe = false ∧ (tSafe 3 {}).stk.hardDue = false ∧ (tSafe 3 {}).pr.role ≠ .active := by decide +kernel

/-- OverrunsAndWatchdog: a soft stop and a hard stop that are due, a rail running. -/
theorem witness_OverrunsAndWatchdog_stops : (let s : State := { tOn with stk := { tOn.stk with hardDue := true } }
     s.stk.hardDue = true ∧ s.time.strobeDue = false) ∧
    (let s : State := { tOn with stk := { tOn.stk with softDue := true }, time := { commitDue := true }
                                 phs := { rail := (Vector.replicate 16 ({} : RailSt)).set 15 { state := .run } } }
     s.stk.softDue = true ∧ s.time.commitDue = true ∧ s.phs.rail[(15 : Fin 16)].state ∈ [.softStart, .run, .burst]) ∧
    (tSafe 0 { role := .active }).pr.role = .active := by decide +kernel

/-- SequencerSteps, the other ends: a term that reads no register, an action that writes none, one that waits for the mirror, a step of thread B without room for its record. -/
theorem witness_SequencerSteps_ends : (let s : State := { tMach 1 0 with mem := memPut (tMach 1 0).mem 0x200020 [1, 0, 4, 0, 0, 0] }
     (match tFound s with | .fault _ k e _ => k == 0 && e == .trap 5 4 | _ => false) = true) ∧
    (State.applyAct .B { s := tOn } (.write 4 [0])).trap = some (5, 4) ∧ (State.applyAct .B { s := tActive 64 } (.write 0x2004C [0])).hold = true ∧
    (tActive 64).pr.queue ≠ [] ∧ 64 < ((tActive 64).mirSeq .B 0).pr.queue.length ∧ (tOn.mirSeq .B 0).pr.queue.length ≤ 64 := by decide +kernel

/-- EmberInstructions, EmberHostCommands: a lease that has run out and one that has not, a pool that is frozen, a write-off that waits and one that does not. -/
theorem witness_EmberInstructions_lease : (let s := tRev .none false
     s.Ready .B 4 ∧ s.embAdmit = true ∧ s.emb.hold[(3 : Fin 256)].lease = some 0 ∧ ¬ s.now < 0 ∧ s.emb.waitReg = []) ∧ tPool.emb.hold[(3 : Fin 256)].lease = none ∧
    ({ tActive 0 with emb := { ops := 6 } } : State).embAdmit = false ∧ (tActive 0).embAdmit = true := by unfold State.Ready; decide +kernel

/-- EmberMessages: a reply with a place in EMB_RSP and one without, a request that waits for it, an offer that has run out and one that has not. -/
theorem witness_EmberMessages_waits : (let m : MsgWait := { kind := .offer, p := 0, src := 9, xid := 8, w := 5 }
     let full : State := { tPool with link := { port := (Vector.replicate 4 ({} : StkPortSt)).set 0 { st := 2, far := 9, txq := #v[[], List.replicate 16 0, [], []] } } }
     tPool.rspRoom m = true ∧ tPool.msgKept m = false ∧ full.rspRoom m = false ∧ full.msgKept m = true ∧ m.answered = true ∧ ({ m with kind := .ask } : MsgWait).answered = false) ∧
    tPool.emb.xfer[(0 : Fin 32)].offerEnd ≤ tPool.now ∧ ¬ ({ offerEnd := 1 } : XferSt).offerEnd ≤ tPool.now := by decide +kernel

/-- EmberTimers: an enforcement write that ends with nothing to complete, a retry that is pending, no write asked for. -/
theorem witness_EmberTimers_enforced : (let r := (tRev .none true).emb.hold[(3 : Fin 256)]
     r.enf.onBus = true ∧ r.rstate ≠ .enforce ∧ r.enf.need = false) ∧ ({ retryAt := some 9 } : EnfSt).retryAt = some 9 ∧ tPool.now < 9 ∧
    tPool.emb.hold[(3 : Fin 256)].enf.need = false ∧ ({ sent := 3, want := 4 } : EnfSt).sent.toNat < 4 := by decide +kernel

/-- TickStarts: imports of earlier ticks, two of one pair, one received in this tick; string 15 with a good pair, its charge whole or not, and one without. -/
theorem witness_TickStarts_latches : (let s : State := { tOn with now := 5, fbx := { impIn := [(4, 7, 15, 1, 2), (5, 8, 15, 3, 4), (6, 9, 15, 5, 6)] } }
     s.fbx.impIn.filter (fun m => s.now < m.1) = [(6, 9, 15, 5, 6)] ∧
     (s.fbx.impIn.filter fun m => m.1 ≤ s.now ∧ m.2.2.1.val = 31 / 2).getLast? = some (5, 8, 15, 3, 4) ∧
     (s.fbx.impIn.filter fun m => m.1 ≤ s.now ∧ m.2.2.1.val = 0).getLast? = none) ∧
    (let s : State := { tOn with feat := 0xC0, regs := [(0x51F60, 0x80000000)], bat := { str := (Vector.replicate 16 ({} : StrSt)).set 15 { q := { v := 5, c := ~~~ 5 } } } }
     (15 : Fin 16).val < s.nStrings ∧ (s.reg (0x51060 + 256 * 15)).getLsbD 31 = true ∧ s.bat.str[(15 : Fin 16)].qBad = false ∧
     s.bat.str[(15 : Fin 16)].q.c = ~~~ s.bat.str[(15 : Fin 16)].q.v) ∧ ({ q := { v := 5, c := 5 } } : StrSt).q.c ≠ ~~~ (5 : BitVec 64) ∧
    ({ qBad := true } : StrSt).qBad = true := by decide +kernel

/-- An entry of 8 watts in its marker window, its base 0, the measured step `v` on sense channel 48, its gain 1, its threshold factor 1. -/
def tStep (v : Word) : State := { tDft [] { valid := true, d := 0, src := 5, h := 3, s := 15, a := 21, m := 8, phase := 1, base := some 0 } with
  regs := [(0xD0004, 0x80000004), (0xD0008, 10), (0xD000C, 0x00020003), (0xD0018, 0x1030), (0xD001C, 0x3F800000), (0xD0020, 0x3F800000)]
  sns := { sample := (Vector.replicate 96 (0 : Word)).set 48 v } }

/-- TickStarts, the Draft step: an entry clipped to its grant and one that is not, a step that reaches its threshold and one that does not, no step, the unit on. -/
theorem witness_TickStarts_draft : (let s := tStep 0x41000000
     let e := s.dft.pend[(63 : Fin 64)]
     s.emb.snap[e.h.toFin].toNat < e.m.natAbs ∧ e.valid = true ∧ e.z = none ∧ e.phase = 1 ∧ e.arrived = false ∧
     max (e.a - (s.reg 0xD000C).toNat % 65536) (e.s + 1) < s.now + 1 ∧ s.now + 1 < e.a + max 1 ((s.reg 0xD000C).toNat / 65536) ∧ e.base = some 0 ∧
     s.stepValue = some 0x41000000 ∧ fpGe (fSub 0x41000000 0) (fMul (s.reg 0xD0020) (fInt 8)) = true ∧ s.cluRole = 0 ∧ (s.reg 0xD0004).getLsbD 31 = true ∧
     s.fbx.halted = false) ∧
    fpGe (fSub 0x40000000 0) (fMul 0x3F800000 (fInt 8)) = false ∧ tOn.stepValue = none ∧ (tDft [] {}).dft.pend[(63 : Fin 64)].base = none := by decide +kernel

/-- ConversionsAndStrobe, the references: phase 0 named by a released output and phase 1 by none, no resume that is due; a battery rail and another. -/
theorem witness_ConversionsAndStrobe_references : (let s : State := { tCtx with
       regs := [(0x14000, 0x80000000), (0x14004, 30), (0x1400C, 0x00001000)]
       fbx := { ctx := (Vector.replicate 128 ({} : CtxSt)).set 0 { out := (Vector.replicate 8 (0 : Word)).set 0 0x3F800000 } } }
     s.pr.resumeAt = none ∧ (0 : Fin 48).val < s.nPhases ∧ s.ctxEn 0 = true ∧ s.fbx.frozen = false ∧ s.isBattery 0 = false ∧ s.usesIpk 0 = none) := by decide +kernel

/-- Context 0 of class S with one state, output and measurement, its matrices 0, its clamps 0 with their complements. -/
def tObs : State := { tCtx with
  regs := [(0x14000, 0xC0000000), (0x14004, 30), (0x14008, 0x00001031), (0x14028, 0), (0x1403C, 0xFFFFFFFF)]
  mem := memPut [] (0x18000 + 4 * 7) [0, 0, 0, 0, 255, 255, 255, 255, 0, 0, 0, 0, 255, 255, 255, 255] }

/-- ContextRuns, class S and priming: due, one state, output and measurement; enabled from 0, each priming, the terms of a change of sets. -/
theorem witness_ContextRuns_classS : tObs.ctxEn 0 = true ∧ tObs.fbxOn = true ∧ tObs.ctxReady 0 = true ∧ tObs.feDue 0 = false ∧ tObs.feExpired 0 = false ∧
    (tObs.reg 0x14000).getLsbD 30 = true ∧ (tObs.reg 0x14028).toNat / 2 ^ 16 % 8 + 1 = 1 ∧ tObs.pair 0x14038 = some 0 ∧ tObs.source 0 0x1031 = some 0 ∧
    tObs.word (0x18000 + 4 * 8) = ~~~ tObs.word (0x18000 + 4 * 7) ∧ tObs.word (0x18000 + 4 * 10) = ~~~ tObs.word (0x18000 + 4 * 9) ∧
    ({ prime := .enabled, oL := some 1, oN := some 2 } : CtxSt).prime = .enabled ∧ ({ prime := .resume 5 } : CtxSt).prime = .resume 5 ∧
    ({ prime := .rearmed } : CtxSt).prime ≠ .lawChanged := by decide +kernel

/-- ShadowCommits: a structural write and its check that finds nothing, one that breaks a rule, an active, a pool that is not sound, a standby. -/
theorem witness_ShadowCommits_kinds : (let s : State := { tOn with time := { commitDue := true }, shadow := [{ ini := .spi, addr := 0x14000, val := 0x80000000 }] }
     let seen := s.withShadow s.lastWrites
     s.lastWrites.any (fun w => seen.isStructural w.1) = true ∧ (schedCheck seen seen.shReg).isSome = true ∧ s.stk.limitDue = false) ∧
    tShadow.lastWrites.any (fun w => (tShadow.withShadow tShadow.lastWrites).isStructural w.1) = true ∧
    schedCheck (tShadow.withShadow tShadow.lastWrites) (tShadow.withShadow tShadow.lastWrites).shReg = none ∧
    (tActive 0).pr.role = .active ∧ (tActive 0).pr.sets = [] ∧ tPool.emb.burns = [] ∧ tPool.emb.frozen = false ∧ tPool.pr.role ≠ .syncing ∧ tPool.pr.role ≠ .synced ∧
    embBreach { tPool.emb with free := { v := 41, c := ~~~ 41 } } ≠ none := by decide +kernel

/-- RegisterWrites: read-only words at both ends of the list, mirrored and not, present and absent; each lock set and not. -/
theorem witness_RegisterWrites_kinds : tOn.absent 0x08 = false ∧ tOn.absent 0xE0200 = false ∧ tOn.absent 0x60008 = false ∧ tOn.absent 0x50000 = true ∧
    tOn.mirrored 0x08 = false ∧ (tActive 0).mirrored 0x40000 = true ∧ (tActive 0).absent 0x40000 = false ∧ (tActive 0).mirHold 0x40000 = false ∧
    (tActive 64).mirHold 0x40000 = true ∧
    (({ tOn with regs := [(0x60, 0x80080201)] } : State).reg 0x60).getLsbD 31 = true ∧ (tOn.reg 0x60).getLsbD 31 = false ∧
    (({ tOn with regs := [(0x68, 0x80000010)] } : State).reg 0x68).getLsbD 31 = true ∧ (tOn.reg 0x68).getLsbD 31 = false ∧
    (({ tOn with regs := [(0x80004, 0x80000000)] } : State).reg 0x80004).getLsbD 31 = true ∧ (tOn.reg 0x80004).getLsbD 31 = false := by decide +kernel

/-- RegisterWrites, the EMB block: each way to wait and none; thread F of an active. -/
theorem witness_RegisterWrites_emb : (tActive 0).pr.role = .active ∧ 6 ≤ ({ ops := 6 } : EmbSt).ops ∧ (tActive 0).emb.waitReg = [] ∧ (tActive 0).pr.resumeAt = none ∧
    (tActive 0).emb.ops < 6 ∧ ({ resumeAt := some 5 } : PairSt).resumeAt.isSome = true ∧ ({ waitReg := [(.spi, 0x60004, 0, 0)] } : EmbSt).waitReg ≠ [] ∧
    Regs.wf (tActive 0).regs = true := by decide +kernel

/-- ClockEvents: the boot path ended, a holdover on and one that ran out, with REFCLK gone; a loss a tick ago. -/
theorem witness_ClockEvents_ends : tLink.boot.stage = .done ∧ (let k : ClkSt := { pllLock := true, holdover := true, holdStart := some 0 }
     k.refOk = false ∧ k.holdover = true ∧ (9999 : Nat) < 0 + 10000 ∧ 0 + 10000 ≤ 10000) ∧ (let k : ClkSt := { fell := true, fellAt := 5 }
     max 0 (k.fellAt + 1) + 63 = 69) := by decide +kernel

/-- TimeEvents: a parent that was heard and one that was not, an offset of whole ticks and none, the 64th message within 3 ns. -/
theorem witness_TimeEvents_lock : ({ freeRun := false, lastTime := 1 } : TimeSt).lastTime + 64 = 65 ∧
    (let s : State := { tLink with now := 64, time := { freeRun := false, lastTime := 1, lockRun := 63 } }
     (s.time.freeRun = true ∨ s.now < s.time.lastTime + 64) ∧ s.time.locked = false ∧ s.time.countMismatch = false ∧ s.isFollower = true ∧ s.portUp s.parentPort = true) ∧
    (let s : State := { tLink with now := 65, time := { freeRun := false, lastTime := 1 } }
     ¬ (s.time.freeRun = true ∨ s.now < s.time.lastTime + 64)) ∧ tOn.portUp 0 = false ∧ tOn.isFollower = false := by decide +kernel

/-- PhaseEvents: the periods of a phase that pulses and of one that does not, its minimum times; a pool too small for a burn, an open holder above its floor, a standby. -/
theorem witness_PhaseEvents_kinds : (let p : PhaseSt := { sw := true, started := true, pulse := true, dt := 0x00640064, tmg := 0x00001010, onLeast := 600 }
     p.sw = true ∧ p.started = true ∧ p.pulse = true ∧ p.dt.toNat % 4096 = 100 ∧ p.dt.toNat / 65536 % 4096 + 32 * (p.tmg.toNat % 256) = 612 ∧
     max (32 * (p.tmg.toNat / 256 % 256)) p.onLeast = 600) ∧
    (let s : State := { tPh { sw := true } with regs := [(0x20000, 0x80000000), (0x20030, 50), (0x20034, ~~~ 50), (0x610C0, 0x80800000)] }
     s.phs.ph[(0 : Fin 48)].sw = true ∧ s.phs.ph[(0 : Fin 48)].fault = false ∧ s.phs.ph[(0 : Fin 48)].burned = false ∧ s.pair 0x20030 = some 50 ∧
     s.emb.free.v.toNat < 50 ∧ s.hOpen 3 = true ∧ (s.hFloor 3).toNat < s.emb.hold[(3 : Fin 256)].grant.v.toNat ∧ (s.hCfg 3).getLsbD 23 = true ∧
     s.pr.role ∉ [.active, .syncing, .synced] ∧ s.emb.frozen = false) ∧ ({ role := .synced } : PairSt).role = .synced ∧
    (let s := tPh { startDue := true }
     (s.periodAt 0).isSome = true ∧ RailState.softStop ∉ [RailState.run] ∧ ({ s with now := 1 } : State).phs.rail[(0 : Fin 16)].startAt + 1 = 1) := by
  decide +kernel

/-- Rail 0 at its strobe, its over-voltage limit 100, its target 10, its band 1, its output `y`. -/
def tRung (r : RailSt) (y : Word) : State := { tRail r with
  regs := (0x14018, 0x41200000) :: (tRail r).regs ++ [(0x2302C, 0x3F800000), (0x23030, 0x42C80000), (0x23034, ~~~ 0x42C80000), (0x23038, 0x3F800000)]
  sns := { sample := (Vector.replicate 96 (0 : Word)).set 48 y } }

/-- RailEvents, the strobe: due and no hand-over; each fault cause and none; retries left and none; enabled and not; near the target and far from it; a phase
to rejoin and one to add; a burst to start and the exits. -/
theorem witness_RailEvents_strobe : (let s := tRung { state := .run, en := true } 0x41200000
     s.time.strobeDue = true ∧ s.cycle ≤ 240 ∧ s.pr.role ≠ .syncing ∧ s.pr.role ≠ .synced ∧ s.boot.halt = false ∧ s.pr.handAt = none ∧ s.pr.resumeAt = none ∧
     s.nHealthy 0 = 1 ∧ max 1 ((s.reg 0x23000).toNat / 2 ^ 22 % 64) = 1 ∧ s.pair 0x23030 = some 0x42C80000 ∧ s.railY 0 = 0x41200000 ∧
     fpGt (s.railY 0) 0x42C80000 = false ∧ fpLe (fSub (s.vtgt 0) (s.railY 0) &&& 0x7FFFFFFF) (s.reg 0x23038) = true ∧ s.running 0 = [0]) ∧
    (tRail {}).pair 0x23030 = some 0x7F800000 ∧ ({ tOn with regs := [(0x23030, 0)] } : State).pair 0x23030 = none ∧ tOn.nHealthy 0 = 0 ∧ fpGt 0x42CA0000 0x42C80000 = true ∧
    fpLt 0 (fMul 0x3DCCCCCD ((tRung {} 0).vtgt 0)) = true ∧ ({ stopAct := true } : RailSt).stopAct = true ∧
    (0 : Nat) < 0x00010000 / 65536 % 16 ∧ (0x00100000 : Word).getLsbD 20 = true ∧ ({ state := .softStop, enPending := true } : RailSt).enPending = true ∧
    fpLe (fSub 0x41200000 0 &&& 0x7FFFFFFF) 0x3F800000 = false ∧
    (let s : State := { tRung { state := .run, en := true } 0x41200000 with phs := {
        ph := (Vector.replicate 48 ({} : PhaseSt)).set 0 { rail := some 0, rejoin := true }, rail := (Vector.replicate 16 ({} : RailSt)).set 0 { state := .run, en := true } } }
     s.isHealthy 0 0 = true ∧ s.phs.ph[(0 : Fin 48)].rejoin = true ∧ ((List.finRange 48).find? fun n => s.isHealthy 0 n && s.phs.ph[n].rejoin) = some 0) ∧
    fpLt 0 (fSub 0x41200000 (fMul 0x40000000 0x3F800000)) = true ∧ fpLt 0x41080000 (fSub 0x41200000 0x3F800000) = true ∧
    fpLt 0x41080000 (fSub 0x41200000 (fMul 0x40000000 0x3F800000)) = false ∧ fpLt 0x41200000 (fSub 0x41200000 0x3F800000) = false ∧
    ({ lastBurst := some 5 } : RailSt).lastBurst = some 5 := by decide +kernel

/-- RecorderAndBlackBox, NonVolatileStore, FuseArray: memory without errors and with one, a reset that waits, a controller asleep, a waiting page of the black box; a
command that a reset stopped short of its limit, and one at its limit. -/
theorem witness_store_clauses : tOn.ecc = [] ∧ ({ rstPend := some 1 } : BootSt).rstPend ≠ none ∧ ({ tOn with pwr := { state := 2 } } : State).awake = false ∧
    ({ queue := [(0, [])] } : BbSt).queue ≠ [] ∧ (2 : BitVec 4).toNat ≠ 8 ∧ (8 : BitVec 4).toNat = 8 ∧ tOn.boot.rstPend = none ∧ tOn.nvm.cur = none ∧
    (let s : State := { tOn with now := 24, otp := { cmd := some (.program 240 8 4), cmdStop := 1 } }
     s.otp.cmd = some (.program 240 8 4) ∧ s.otp.cmdStop = (1 : BitVec 4).toNat ∧ s.otp.cmdAt + 24 * 1 ≤ s.now) := by decide +kernel

/-- PmbusCommands: a block cut short and one that is whole, a command that waits for the mirror and one that does not. -/
theorem witness_PmbusCommands_short : ([0, 0, 0x20, 0] : List Byte).length < 5 ∧ 5 ≤ ([0, 0, 0x20, 0, 4] : List Byte).length ∧ ([1, 3, 0] : List Byte).length < 8 ∧
    (tActive 64).txnHold (.poke 0x2004C 4 1) = true ∧ (tActive 63).txnHold (.words 0x20040 [1, 2]) = true ∧ (tActive 63).txnHold (.poke 0x2004C 4 1) = false ∧
    tTwi.txnHold (.poke 0x60 4 5) = false := by decide +kernel

/-- TwoWireAndSpi: a bus without a move for 2,000 ticks and for 25,000, and one that moved later. -/
theorem witness_TwoWireAndSpi_windows : (let s : State := { tTwi with now := 25000 }
     s.twi[(0 : Fin 3)].busAt + 2000 ≤ s.now ∧ s.twi[(0 : Fin 3)].busAt + 25000 ≤ s.now ∧ ¬ s.now < s.twi[(0 : Fin 3)].busAt + 25000) ∧
    ¬ ({ busAt := 1 } : TwiSt).busAt + 25000 ≤ 25000 ∧ tTwi.yetHalted = false ∧
    (let s : State := { tOn with now := 5, pr := { role := .active, handAt := some 5 } }
     s.yetHalted = true) := by decide +kernel

/-- StackLink: a frame that may leave, one sent in this tick, one before the strobe; a port in TRAINING; messages that were due; a full queue and one with room; a lead that changes and one that does not. -/
theorem witness_StackLink_sends : (tStk 2).time.strobeDue = false ∧ (tStk 2).link.port[(0 : Fin 4)].sentAt ≠ some (tStk 2).now ∧ ({ sentAt := some 9 } : StkPortSt).sentAt = some 9 ∧
    tShadow.time.strobeDue = false ∧ tCtx.time.strobeDue = true ∧ (tStk 1).link.port[(0 : Fin 4)].st = 1 ∧ (tStk 1).pr.role ≠ .failed ∧
    ({ dues := [1], ctrlDues := [2] } : StkPortSt).dues ≠ [] ∧ 28 ≤ (List.replicate 28 (0 : Msg)).length ∧
    (0x40050000 : Word).toNat / 2 ^ 30 % 3 ≠ (0 : Word).toNat / 2 ^ 30 % 3 ∧ (0x00050000 : Word).toNat / 65536 % 16384 = 5 := by decide +kernel

/-- PairUnit: the controller's pair and none, a stale standby, a frame applied and none, a swap that stands and one that is past, the resync asked for again. -/
theorem witness_PairUnit_kinds : (tPair { wit := true }).hasPair = true ∧ tOn.hasPair = false ∧ ({ stale := true } : PairSt).stale = true ∧
    ({ rxAt := some 7, lastSeq := 5 } : PairSt).rxAt = some 7 ∧ ({ swapAt := some 5, swapAnn := true } : PairSt).swapAnn = true ∧ (2 : Nat) + 3 ≤ 5 ∧ (1 : Nat) < 2 + 3 ∧
    ({ peerReq := true, resyncAt := some 0 } : PairSt).resyncAt.all (fun x => decide (x + 3 ≤ 2)) = false ∧
    ({ peerReq := true, resyncAt := some 0 } : PairSt).resyncAt.all (fun x => decide (x + 3 ≤ 3)) = true := by decide +kernel

/-- PairUnit, the witness: B granted in this tick and A's first pulse; edges that are fresh and gone; both grants during a swap; a full queue of CTRL messages. -/
theorem witness_PairUnit_edges : (let w : WitSt := { grantB := true, firstB := some 9, aliveA := some 7, edgeB := some 6 }
     w.grantA = false ∧ w.firstB = some 9 ∧ (9 : Nat) < 7 + 3 ∧ ¬ (9 : Nat) < 6 + 3) ∧
    (let w : WitSt := { grantA := true, grantB := true, swapping := true, swapNew := .A }
     w.grantB = true ∧ w.swapping = true ∧ Ctl.A = w.swapNew) ∧ 28 ≤ (List.replicate 28 (0 : Msg)).length := by decide +kernel

/-- StartupAndPower: a window of the recorder with records suppressed, a summary owed, a step of boot in this tick and in an earlier one, RESET_N held, black-box pages that wait. -/
theorem witness_StartupAndPower_clauses : ({ isOpen := true, supp := 3 } : RateWin).supp ≠ 0 ∧ ({ isOpen := true, supp := 3 } : RateWin).isOpen = true ∧
    (let s : State := { tBoot { stage := .start, lastStep := 4 } with now := 5 }
     s.boot.stage = .start ∧ s.boot.lastStep < s.now ∧ ({ s with now := 4 } : State).now ≤ s.boot.lastStep) ∧
    ({ held := true, freed := false } : BootSt).held = true ∧ ({ queue := [(0, [])] } : BbSt).queue ≠ [] ∧ tOn.log.bb.queue = [] := by decide +kernel
end

section
/-! SUPPORT. Laws of a thread's registers, of how its instructions end, and of what the strobe does before thread F wakes; with them
the statements of 03_lerzia.md on registers, branches, traps and special registers. -/

namespace Sys2Proof.Machine

/-! ### The registers of a thread (R63) -/

@[simp] theorem ThreadSt.freg_setReg (t : ThreadSt) (r : Reg) (v : Word) (f : FReg) : (t.setReg r v).freg f = t.freg f := by
  unfold ThreadSt.freg; simp only [ThreadSt.setReg_f]

@[simp] theorem ThreadSt.reg_setFreg (t : ThreadSt) (f : FReg) (v : Word) (r : Reg) : (t.setFreg f v).reg r = t.reg r := rfl

@[simp] theorem ThreadSt.freg_setFreg (t : ThreadSt) (f : FReg) (v : Word) : (t.setFreg f v).freg f = v := by
  simp [ThreadSt.freg, ThreadSt.setFreg]

theorem ThreadSt.freg_setFreg_ne (t : ThreadSt) (f q : FReg) (v : Word) (h : q ≠ f) : (t.setFreg f v).freg q = t.freg q := by
  have h' : ¬ f.toNat = q.toNat := fun e => h (BitVec.eq_of_toNat_eq e.symm)
  simp [ThreadSt.freg, ThreadSt.setFreg, h']

@[simp] theorem State.modTh_id (s : State) (th : Thread) : s.modTh th (fun t => t) = s := by cases th <;> rfl

@[simp] theorem State.setGr_th (s : State) (th : Thread) (r : Reg) (v : Word) : (s.setGr th r v).th th = (s.th th).setReg r v :=
  State.modTh_th s th _

@[simp] theorem State.setFr_th (s : State) (th : Thread) (f : FReg) (v : Word) : (s.setFr th f v).th th = (s.th th).setFreg f v :=
  State.modTh_th s th _

/-- The register g0 discards a write. -/
theorem State.setGr_zero (s : State) (th : Thread) (v : Word) : s.setGr th 0 v = s := State.modTh_id s th

theorem ThreadSt.reg_init (r : Reg) : ({} : ThreadSt).reg r = 0 := by simp [ThreadSt.reg]

theorem ThreadSt.freg_init (f : FReg) : ({} : ThreadSt).freg f = 0 := by simp [ThreadSt.freg]

theorem State.reset_th (th : Thread) : State.reset.th th = {} := by cases th <;> rfl

/-- Settles O7: a write changes the register it names and no other, and a reset thread holds zeros. -/
theorem generalRegisters : Obligations.GeneralRegisters := by
  refine ⟨fun s th v => ⟨rfl, s.setGr_zero th v, fun r hr => ⟨?_, fun q hq => ?_, fun f => ?_, fun o ho => ?_⟩,
    fun f => ⟨?_, fun q hq => ?_, fun r => ?_, fun o ho => ?_⟩⟩, fun th r f => ⟨?_, ?_⟩⟩
  · simp only [State.gr, State.setGr_th, ThreadSt.reg_setReg _ r v hr]
  · simp only [State.gr, State.setGr_th, ThreadSt.reg_setReg_ne _ r q v hq]
  · simp only [State.fr, State.setGr_th, ThreadSt.freg_setReg]
  · exact State.modTh_other s th o _ ho
  · simp only [State.fr, State.setFr_th, ThreadSt.freg_setFreg]
  · simp only [State.fr, State.setFr_th, ThreadSt.freg_setFreg_ne _ f q v hq]
  · simp only [State.gr, State.setFr_th, ThreadSt.reg_setFreg]
  · exact State.modTh_other s th o _ ho
  · rw [State.gr, State.reset_th, ThreadSt.reg_init]
  · rw [State.fr, State.reset_th, ThreadSt.freg_init]

/-! ### How an instruction ends (R60, R61, R82) -/

/-- An instruction that is ready to run runs in its thread's time. -/
theorem State.Ready.canRun {s : State} {th : Thread} {c : Nat} (h : s.Ready th c) : s.canRun th c = true := h.1.1

/-- Before an instruction that is ready no record is posted or held. -/
theorem State.Ready.noRecords {s : State} {th : Thread} {c : Nat} (h : s.Ready th c) : s.log.posted = [] ∧ s.log.held = [] := h.2.2

/-- An instruction that posts no record ends at the next program counter `p` gives, or at the next word. -/
theorem finish_insn_ends {s u : State} {th : Thread} {c : Nat} {f : State → InsOut} {p : Option Word} (h : s.Ready th c)
    (hf : f s = { s := u, pc := p }) (hl : u.log = s.log) :
    finish (s.insn th c f) = .next ((u.modTh th fun t => { t with pc := p.getD (t.pc + 4) }).spend c) := by
  rw [State.insn_ends s th c f h (by rw [hf]) (by rw [hf]), hf]
  obtain ⟨hp, hh⟩ := h.noRecords
  exact finish_nil _ (by simp [hl, hp]) (by simp [hl, hh])

/-- An instruction that traps before it has any effect comes to the trap's entry. -/
theorem finish_insn_traps {s : State} {th : Thread} {c k : Nat} {v : Word} {f : State → InsOut} (h : s.Ready th c)
    (h2 : s.Ready th 2) (hf : f s = { s := s, trap := some (k, v) }) :
    finish (s.insn th c f) = .next (s.trapEntry th k v).settle := by
  rw [State.insn_trap s th c f h k v h2.canRun (by rw [hf]) (by rw [hf]), hf]; rfl

/-- An instruction that always traps. -/
theorem finish_trapIns {s : State} {th : Thread} {k : Nat} {v : Word} (h : s.Ready th 2) :
    finish (s.trapIns th k v) = .next (s.trapEntry th k v).settle := finish_insn_traps h h rfl

/-! ### Branches and JAL (R72) -/

/-- A 4-aligned address of program SRAM, where a thread can go on (R72). -/
def GoodTarget (a : Word) : Prop := a.toNat % 4 = 0 ∧ 0x100000 ≤ a.toNat ∧ a.toNat < 0x140000

theorem goodPc_iff (a : Word) : goodPc a = true ↔ GoodTarget a := by simp [goodPc, inProg, GoodTarget]

/-- What a conditional branch comes to where it is taken under the condition `take`, to `target` (R72). -/
def Branches (i : Instr) (s : State) (th : Thread) (target : Word) (take : Prop) : Prop :=
  (¬ take → s.Ready th 1 → exec i s = .next (s.done th 1)) ∧
  (take → GoodTarget target → s.Ready th 2 → exec i s = .next ((s.modTh th fun t => { t with pc := target }).spend 2)) ∧
  (take → ¬ GoodTarget target → s.Ready th 2 → exec i s = .next (s.trapEntry th 0x03 target).settle)

section
variable {s : State} {th : Thread} {rs1 rs2 : Reg} {off : BitVec 16} {c : Word → Word → Bool}

theorem State.branch_notTaken (hc : c (s.gr th rs1) (s.gr th rs2) = false) (h : s.Ready th 1) :
    finish (s.branch th rs1 rs2 off c) = .next (s.done th 1) := by
  simp only [State.branch, hc]
  exact finish_insn_ends (u := s) (p := none) h rfl rfl

theorem State.branch_taken (hc : c (s.gr th rs1) (s.gr th rs2) = true) (hg : GoodTarget ((s.th th).pc + 4 * sext off))
    (h : s.Ready th 2) :
    finish (s.branch th rs1 rs2 off c) = .next ((s.modTh th fun t => { t with pc := (s.th th).pc + 4 * sext off }).spend 2) := by
  simp only [State.branch, hc, if_true]
  exact finish_insn_ends (u := s) (p := some ((s.th th).pc + 4 * sext off)) h (if_pos ((goodPc_iff _).mpr hg)) rfl

theorem State.branch_traps (hc : c (s.gr th rs1) (s.gr th rs2) = true) (hg : ¬ GoodTarget ((s.th th).pc + 4 * sext off))
    (h : s.Ready th 2) :
    finish (s.branch th rs1 rs2 off c) = .next (s.trapEntry th 0x03 ((s.th th).pc + 4 * sext off)).settle := by
  simp only [State.branch, hc, if_true]
  exact finish_insn_traps h h (if_neg (by simpa [goodPc_iff] using hg))

/-- An instruction that is a branch on a test of rs1 and rs2 branches where the test holds. -/
theorem branches_of {i : Instr} {take : Prop} (hi : exec i s = finish (s.branch th rs1 rs2 off c))
    (hc : c (s.gr th rs1) (s.gr th rs2) = true ↔ take) : Branches i s th ((s.th th).pc + 4 * sext off) take := by
  refine ⟨fun ht h => ?_, fun ht hg h => ?_, fun ht hg h => ?_⟩ <;> rw [hi]
  · exact State.branch_notTaken (Bool.eq_false_iff.mpr fun e => ht (hc.mp e)) h
  · exact State.branch_taken (hc.mpr ht) hg h
  · exact State.branch_traps (hc.mpr ht) hg h

theorem State.jump_ends {rd : Reg} {target : State → Word} (hg : GoodTarget (target s)) (h : s.Ready th 2) :
    finish (s.jump th rd target) =
      .next (((s.setGr th rd ((s.th th).pc + 4)).modTh th fun t => { t with pc := target s }).spend 2) :=
  finish_insn_ends (u := s.setGr th rd ((s.th th).pc + 4)) (p := some (target s)) h (if_pos ((goodPc_iff _).mpr hg)) (by simp)

theorem State.jump_traps {rd : Reg} {target : State → Word} (hg : ¬ GoodTarget (target s)) (h : s.Ready th 2) :
    finish (s.jump th rd target) = .next (s.trapEntry th 0x03 (target s)).settle :=
  finish_insn_traps h h (if_neg (by simpa [goodPc_iff] using hg))
end

/-- The complement of the signed order, as BGE tests it. -/
theorem not_slt_iff_toInt_le (a b : Word) : (!a.slt b) = true ↔ b.toInt ≤ a.toInt := by
  simp [BitVec.slt_eq_decide]

/-- The complement of the unsigned order, as BGEU tests it. -/
theorem not_ult_iff_toNat_le (a b : Word) : (!a.ult b) = true ↔ b.toNat ≤ a.toNat := by
  simp [BitVec.ult_eq_decide]

/-- Settles O16: each branch is the one rule of R72 on its own comparison, and JAL jumps. -/
theorem branchesAndJal : Obligations.BranchesAndJal := by
  intro th rd rs1 rs2 off far s
  exact ⟨branches_of rfl beq_iff_eq, branches_of rfl bne_iff_ne, branches_of rfl BitVec.slt_iff_toInt_lt,
    branches_of rfl (not_slt_iff_toInt_le _ _), branches_of rfl BitVec.ult_iff_lt, branches_of rfl (not_ult_iff_toNat_le _ _),
    fun hg h => State.jump_ends hg h, fun hg h => State.jump_traps hg h⟩

/-! ### Trap entry (R82) -/

@[simp] theorem State.dev_th (s : State) (code sev : Nat) (ws : List Word) (th : Thread) : (s.dev code sev ws).th th = s.th th := by
  cases th <;> rfl

section
variable {s : State} {th : Thread} (k : Nat) (v : Word) (h : (s.th th).intrap = false)
include h

/-- A first trap changes the Stoker, the recorder and the cycle alone. -/
theorem State.trapEntry_frame : s.trapEntry th k v =
    { s with stk := (s.trapEntry th k v).stk, log := (s.trapEntry th k v).log, cycle := (s.trapEntry th k v).cycle } := by
  rw [State.trapEntry_first s th k v h]
  cases th <;> rfl

/-- Of the Stoker it changes the registers of its threads alone. -/
theorem State.trapEntry_stk : (s.trapEntry th k v).stk =
    { s.stk with thF := (s.trapEntry th k v).stk.thF, thB := (s.trapEntry th k v).stk.thB } := by
  rw [State.trapEntry_first s th k v h]
  cases th <;> rfl

theorem State.trapEntry_th : (s.trapEntry th k v).th th =
    { s.th th with tpc := (s.th th).pc, tcause := nw k, tval := v, intrap := true, pc := (s.th th).tvec } := by
  rw [State.trapEntry_first s th k v h, State.spend_th, State.dev_th, State.modTh_th]

theorem State.trapEntry_other {o : Thread} (ho : o ≠ th) : (s.trapEntry th k v).th o = s.th o := by
  rw [State.trapEntry_first s th k v h, State.spend_th, State.dev_th, State.modTh_other s th o _ ho]

theorem State.trapEntry_log : (s.trapEntry th k v).log = (s.dev 0x030 3 [thWord th, nw k, (s.th th).pc, v]).log := by
  rw [State.trapEntry_first s th k v h]
  cases th <;> rfl

theorem State.trapEntry_cycle : (s.trapEntry th k v).cycle = min 599 (s.cycle + 2) := by
  rw [State.trapEntry_first s th k v h, State.spend_cycle, State.dev_cycle, State.modTh_cycle]
end

/-- RETT to a program counter where a thread can go on. -/
theorem rett_returns {s : State} {th : Thread} (h : s.Ready th 2) (hg : GoodTarget (s.th th).tpc) :
    exec (.rett th) s = .next ((s.modTh th fun t => { t with intrap := false, pc := t.tpc }).spend 2) := by
  refine (finish_insn_ends (u := s.modTh th fun t => { t with intrap := false }) (p := some (s.th th).tpc) h
    (if_pos ((goodPc_iff _).mpr hg)) (by simp)).trans ?_
  cases th <;> rfl

/-- Settles O22: the parts of a first trap's entry; TRAP is an instruction that always traps; RETT goes on at tpc. -/
theorem trapEntry : Obligations.TrapEntry := by
  refine ⟨fun th k v s h => ?_, fun th rs1 s h _ => finish_trapIns h, fun th s h ha hlo hhi => rett_returns h ⟨ha, hlo, hhi⟩⟩
  refine ⟨State.trapEntry_frame k v h, fun hc => ?_, fun o ho => State.trapEntry_other k v h ho, State.trapEntry_stk k v h,
    State.trapEntry_th k v h, ?_⟩
  · rw [State.trapEntry_cycle k v h, Nat.min_eq_right hc]
  · cases th <;> exact State.trapEntry_log k v h

/-! ### Special registers (R64, R65) -/

theorem State.readSr_tid (s : State) (th : Thread) : s.readSr th 0 = some (if th = .F then 0 else 1) := by cases th <;> rfl

theorem State.readSr_status (s : State) (th : Thread) :
    s.readSr th 3 = some (bw (s.th th).intrap 0 ||| if th = .F then bw s.stk.sf 1 ||| bw s.stk.povr 2 else 0) := by
  cases th
  · exact congrArg some (BitVec.or_assoc _ _ _)
  · exact congrArg some BitVec.or_zero.symm

/-- There is no special register past the last (R65). -/
theorem State.readSr_none (s : State) (th : Thread) {i : Nat} (h : 11 ≤ i) : s.readSr th i = none := by
  obtain ⟨k, rfl⟩ := Nat.exists_eq_add_of_le' h
  rfl

theorem State.writeSr_illegal (s : State) (th : Thread) {i : Nat} (v w : Word) (h : 11 ≤ i) :
    s.writeSr th i v w = { s := s, trap := some (0x01, w) } := by
  obtain ⟨k, rfl⟩ := Nat.exists_eq_add_of_le' h
  simp [State.writeSr]

/-- The read-only special registers refuse a write (R65). -/
theorem State.writeSr_readOnly (s : State) (th : Thread) {sr : BitVec 5} (v w : Word)
    (h : sr ∈ ([0, 1, 2, 3, 6, 7, 10] : List (BitVec 5))) :
    s.writeSr th sr.toNat v w = { s := s, trap := some (0x06, sr.setWidth 32) } := by
  simp only [List.mem_cons, List.not_mem_nil, or_false] at h
  obtain rfl | rfl | rfl | rfl | rfl | rfl | rfl := h <;> rfl

theorem wordOf_eq {i : Instr} {w : Word} (h : encode i = some w) : wordOf i = w := by rw [wordOf, h]; rfl

section
variable {s : State} {th : Thread} {rd rs1 : Reg} {sr n : BitVec 5} {v w : Word}

/-- RDSR puts the special register it names into rd. -/
theorem rdsr_reads (h : s.Ready th 1) (hv : s.readSr th n.toNat = some v) (hn : sr = n) :
    exec (.rdsr th rd sr) s = .next ((s.setGr th rd v).done th 1) := by
  subst hn
  exact finish_insn_ends (u := s.setGr th rd v) (p := none) h (by rw [hv]; rfl) (by simp)

theorem rdsr_illegal (h : s.Ready th 1) (h2 : s.Ready th 2) (hsr : 11 ≤ sr.toNat) (hw : encode (.rdsr th rd sr) = some w) :
    exec (.rdsr th rd sr) s = .next (s.trapEntry th 0x01 w).settle :=
  finish_insn_traps h h2 (by rw [State.readSr_none s th hsr, wordOf_eq hw])

/-- WRSR comes to the state that the write of the special register gives. -/
theorem wrsr_writes {u : State} (h : s.Ready th 1) (hu : s.writeSr th n.toNat (s.gr th rs1) (wordOf (.wrsr th n rs1)) = { s := u })
    (hl : u.log = s.log) (hn : sr = n) : exec (.wrsr th sr rs1) s = .next (u.done th 1) := by
  subst hn
  exact finish_insn_ends (u := u) (p := none) h hu hl

/-- WRSR traps where the write of the special register does. -/
theorem wrsr_traps {k : Nat} (h : s.Ready th 1) (h2 : s.Ready th 2)
    (hk : s.writeSr th sr.toNat (s.gr th rs1) (wordOf (.wrsr th sr rs1)) = { s := s, trap := some (k, v) }) :
    exec (.wrsr th sr rs1) s = .next (s.trapEntry th k v).settle :=
  finish_insn_traps h h2 hk

/-- Thread F may not write fentry (R65). -/
theorem wrsr_fentry_F (h : s.Ready .F 1) (h2 : s.Ready .F 2) (hw : encode (.wrsr .F 8 rs1) = some w) :
    exec (.wrsr .F 8 rs1) s = .next (s.trapEntry .F 0x02 w).settle :=
  wrsr_traps h h2 (by rw [wordOf_eq hw]; rfl)

theorem wrsr_illegal (h : s.Ready th 1) (h2 : s.Ready th 2) (hsr : 11 ≤ sr.toNat) (hw : encode (.wrsr th sr rs1) = some w) :
    exec (.wrsr th sr rs1) s = .next (s.trapEntry th 0x01 w).settle :=
  wrsr_traps h h2 (by rw [State.writeSr_illegal s th _ _ hsr, wordOf_eq hw])
end

/-! ### What the strobe keeps until thread F wakes (R57, 02 R43) -/

/-- What decides whether and where thread F wakes at the strobe (`State.wakeF_wakes`), with its registers: the register file, the registers
of F, fentry, whether F is halted, the pair unit and the power state. The units' steps of the strobe before the wake set event bits and
records, and change their own parts of the state, but nothing of this. -/
def State.wakeView (s : State) : List (Nat × Word) × ThreadSt × Word × Bool × PairSt × PwrSt :=
  (s.regs, s.stk.thF, s.stk.fentry, s.stk.fHalted, s.pr, s.pwr)

/-- A fold keeps what each of its steps keeps. -/
theorem foldl_keeps {σ α β : Type} (view : σ → β) {f : σ → α → σ} (h : ∀ s a, view (f s a) = view s) (l : List α) (s : σ) :
    view (l.foldl f s) = view s := by
  induction l generalizing s with
  | nil => rfl
  | cons a l ih => rw [List.foldl_cons, ih, h]

theorem ite_wakeView {p : Prop} [Decidable p] {s t : State} {u : State} (hs : s.wakeView = u.wakeView) (ht : t.wakeView = u.wakeView) :
    (if p then s else t).wakeView = u.wakeView := by split <;> assumption

section
variable (s : State)

theorem State.withPhs_wakeView (p : PhsSt) : State.wakeView { s with phs := p } = s.wakeView := rfl
theorem State.withEmb_wakeView (e : EmbSt) : State.wakeView { s with emb := e } = s.wakeView := rfl
theorem State.withFbx_wakeView (x : FbxSt) : State.wakeView { s with fbx := x } = s.wakeView := rfl
theorem State.withSns_wakeView (n : SnsSt) : State.wakeView { s with sns := n } = s.wakeView := rfl
@[simp] theorem State.modPh_wakeView (n : Fin 48) (f : PhaseSt → PhaseSt) : (s.modPh n f).wakeView = s.wakeView := rfl
@[simp] theorem State.modRail_wakeView (g : Fin 16) (f : RailSt → RailSt) : (s.modRail g f).wakeView = s.wakeView := rfl
@[simp] theorem State.modCtx_wakeView (x : Fin 128) (f : CtxSt → CtxSt) : (s.modCtx x f).wakeView = s.wakeView := rfl
@[simp] theorem State.modStr_wakeView (b : Fin 16) (f : StrSt → StrSt) : (s.modStr b f).wakeView = s.wakeView := rfl
@[simp] theorem State.modHold_wakeView (h : Fin 256) (f : HolderSt → HolderSt) : (s.modHold h f).wakeView = s.wakeView := rfl
@[simp] theorem State.embOp_wakeView (f : EmbSt → EmbSt) : (s.embOp f).wakeView = s.wakeView := rfl
@[simp] theorem State.dev_wakeView (c v : Nat) (ws : List Word) : (s.dev c v ws).wakeView = s.wakeView := rfl
@[simp] theorem State.evp_wakeView (b : Nat) : (s.evp b).wakeView = s.wakeView := rfl
@[simp] theorem State.drawn_wakeView : s.drawn.wakeView = s.wakeView := rfl
@[simp] theorem State.flagErr_wakeView (f a : Nat) : (s.flagErr f a).wakeView = s.wakeView := rfl

@[simp] theorem State.devList_wakeView (c v : Nat) (ws : List Word) (es : List (List Word)) :
    (s.devList c v ws es).wakeView = s.wakeView := by
  unfold State.devList
  dsimp only
  split <;> rfl

/-! The battery's results (11 R250). -/

@[simp] theorem State.batSoc_wakeView (b : Fin 16) : (s.batSoc b).wakeView = s.wakeView := by
  unfold State.batSoc
  dsimp only
  repeat' split
  all_goals simp

@[simp] theorem State.cutRelease_wakeView (b : Fin 16) : (s.cutRelease b).wakeView = s.wakeView := by
  unfold State.cutRelease
  dsimp only
  split <;> simp

@[simp] theorem State.batShow_wakeView (b : Fin 16) : (s.batShow b).wakeView = s.wakeView := by
  unfold State.batShow
  dsimp only
  repeat' split
  all_goals simp

@[simp] theorem State.batResults_wakeView : s.batResults.wakeView = s.wakeView :=
  foldl_keeps State.wakeView State.batShow_wakeView _ s

/-! References and exports (07 R165-R167, 05 R133). -/

@[simp] theorem State.fbxStrobe_wakeView : s.fbxStrobe.wakeView = s.wakeView := by
  unfold State.fbxStrobe
  dsimp only
  rw [State.withFbx_wakeView]
  refine foldl_keeps State.wakeView (fun s x => ?_) _ s
  repeat' split
  all_goals rfl

@[simp] theorem State.loadEff_wakeView : s.loadEff.wakeView = s.wakeView :=
  foldl_keeps State.wakeView (fun _ _ => by split <;> rfl) _ s

@[simp] theorem State.loadRefs_wakeView : s.loadRefs.wakeView = s.wakeView := by
  unfold State.loadRefs
  dsimp only
  rw [State.loadEff_wakeView]
  refine foldl_keeps State.wakeView (fun s n => ?_) _ s
  repeat' split
  all_goals rfl

@[simp] theorem State.queueExports_wakeView (rs : List (BitVec 16 × Word)) : (s.queueExports rs).wakeView = s.wakeView := by
  refine foldl_keeps State.wakeView (fun s e => ?_) _ s
  dsimp only
  repeat' split
  all_goals rfl

/-! The Ember ledger at the burn of a phase fault (09 R217-R221). -/

@[simp] theorem State.newLimit_wakeView (h : Fin 256) (w : Word) : (s.newLimit h w).wakeView = s.wakeView := by
  unfold State.newLimit
  split <;> rfl

@[simp] theorem State.lowerLimit_wakeView (h : Fin 256) : (s.lowerLimit h).wakeView = s.wakeView := by
  unfold State.lowerLimit
  dsimp only
  split <;> simp

@[simp] theorem State.withSlow_wakeView (b : BitVec 16) : (s.withSlow b).wakeView = s.wakeView := by
  unfold State.withSlow
  dsimp only
  split <;> rfl

@[simp] theorem State.enterEnforce_wakeView (h : Fin 256) : (s.enterEnforce h).wakeView = s.wakeView := by
  unfold State.enterEnforce
  dsimp only
  repeat' split
  all_goals simp

@[simp] theorem State.revoke_wakeView (h : Fin 256) (w : Word) (o : Nat) (g : Bool) : (s.revoke h w o g).wakeView = s.wakeView := by
  unfold State.revoke
  dsimp only
  rw [State.dev_wakeView, State.withSlow_wakeView, State.lowerLimit_wakeView]
  repeat' split
  all_goals simp

@[simp] theorem State.debtRevoke_wakeView (d : Word) : (s.debtRevoke d).wakeView = s.wakeView := by
  unfold State.debtRevoke
  generalize hr : List.foldl _ _ _ = r
  have hk : r.1.wakeView = s.wakeView := by
    rw [← hr]
    refine foldl_keeps (fun p : State × Word × List (List Word) => p.1.wakeView) (fun p h => ?_) _ _
    dsimp only
    split
    · rfl
    · exact p.1.revoke_wakeView h _ _ _
  obtain ⟨u, need, list⟩ := r
  refine ite_wakeView ?_ ?_
  · rw [State.devList_wakeView, hk]
  · rw [State.dev_wakeView, State.withEmb_wakeView, State.devList_wakeView, hk]

@[simp] theorem State.burnNow_wakeView (w : Word) : (s.burnNow w).wakeView = s.wakeView := by
  unfold State.burnNow
  dsimp only
  repeat' split
  all_goals simp

@[simp] theorem State.hwBurn_wakeView (n : Fin 48) (w : Word) : (s.hwBurn n w).wakeView = s.wakeView := by
  unfold State.hwBurn
  repeat' split
  · rfl
  · rfl
  · exact s.burnNow_wakeView w

/-! The rails' steps (07 R176). -/

@[simp] theorem State.burnPhase_wakeView (n : Fin 48) : (s.burnPhase n).1.wakeView = s.wakeView := by
  unfold State.burnPhase
  repeat' split
  all_goals simp

@[simp] theorem State.faultPhase_wakeView (n : Fin 48) (c : BitVec 4) (code : Nat) (mid : List Word) :
    (s.faultPhase n c code mid).wakeView = s.wakeView := by
  simp [State.faultPhase]

@[simp] theorem State.checkAoc_wakeView (n : Fin 48) : (s.checkAoc n).wakeView = s.wakeView := by
  unfold State.checkAoc
  dsimp only
  repeat' split
  all_goals simp

@[simp] theorem State.clearFault_wakeView (n : Fin 48) (w : Word) : (s.clearFault n w).wakeView = s.wakeView := by
  unfold State.clearFault
  dsimp only
  split <;> rfl

@[simp] theorem State.stopMembers_wakeView (g : Fin 16) : (s.stopMembers g).wakeView = s.wakeView :=
  foldl_keeps State.wakeView (fun _ _ => by split <;> rfl) _ s

@[simp] theorem State.loadOfs_wakeView (g : Fin 16) : (s.loadOfs g).wakeView = s.wakeView :=
  foldl_keeps State.wakeView (fun _ _ => by rfl) _ s

@[simp] theorem State.zeroCarriers_wakeView (due : Fin 16 → Bool) : (s.zeroCarriers due).wakeView = s.wakeView :=
  foldl_keeps State.wakeView (fun _ _ => by split <;> rfl) _ s

@[simp] theorem State.startMembers_wakeView : s.startMembers.wakeView = s.wakeView := by
  unfold State.startMembers
  refine (foldl_keeps State.wakeView (fun s n => ?_) _ _).trans (s.zeroCarriers_wakeView _)
  dsimp only
  repeat' split
  all_goals rfl

@[simp] theorem State.railOff_wakeView (g : Fin 16) : (s.railOff g).wakeView = s.wakeView := by
  simp [State.railOff]

@[simp] theorem State.railStart_wakeView (g : Fin 16) : (s.railStart g).wakeView = s.wakeView := by
  unfold State.railStart
  dsimp only
  rw [State.dev_wakeView, State.modCtx_wakeView, State.loadOfs_wakeView]
  refine (foldl_keeps State.wakeView (fun s n => ?_) _ _).trans rfl
  repeat' split
  all_goals simp

@[simp] theorem State.railSoftStop_wakeView (g : Fin 16) (r0 : Word) (c : BitVec 4) : (s.railSoftStop g r0 c).wakeView = s.wakeView := by
  unfold State.railSoftStop
  dsimp only
  refine ite_wakeView (by simp) ?_
  rw [State.modRail_wakeView, State.evp_wakeView]
  exact ite_wakeView (foldl_keeps State.wakeView (fun _ _ => by rfl) _ _) rfl

@[simp] theorem State.railFaults_wakeView (g : Fin 16) : (s.railFaults g).1.wakeView = s.wakeView := by
  unfold State.railFaults
  dsimp only
  split <;> rfl

@[simp] theorem State.railFaultStop_wakeView (g : Fin 16) (cs : List Nat) : (s.railFaultStop g cs).wakeView = s.wakeView := by
  unfold State.railFaultStop
  dsimp only
  repeat' split
  all_goals simp

@[simp] theorem State.addPhase_wakeView (g : Fin 16) (n : Fin 48) (im : Word) : (s.addPhase g n im).wakeView = s.wakeView := rfl

@[simp] theorem State.railReg_wakeView (g : Fin 16) : (s.railReg g).wakeView = s.wakeView := rfl

@[simp] theorem State.railRun_wakeView (g : Fin 16) : (s.railRun g).wakeView = s.wakeView := by
  unfold State.railRun
  simp only [State.modRail_wakeView]
  repeat' split
  all_goals simp

@[simp] theorem State.railBurst_wakeView (g : Fin 16) : (s.railBurst g).wakeView = s.wakeView := by
  unfold State.railBurst
  dsimp only
  refine ite_wakeView ?_ (ite_wakeView ?_ ?_)
  · rw [State.dev_wakeView]
    refine (foldl_keeps State.wakeView (fun _ _ => by rfl) _ _).trans ?_
    rw [State.modRail_wakeView]
    split <;> simp
  · rw [State.modRail_wakeView]
    refine (foldl_keeps State.wakeView (fun _ _ => by split <;> rfl) _ _).trans ?_
    split <;> simp
  · split <;> simp

@[simp] theorem State.pendEn_wakeView (g : Fin 16) : (s.pendEn g).wakeView = s.wakeView := by
  unfold State.pendEn
  dsimp only
  split <;> rfl

@[simp] theorem State.railStep_wakeView (g : Fin 16) : (s.railStep g).wakeView = s.wakeView := by
  unfold State.railStep
  dsimp only
  repeat' split
  all_goals simp

@[simp] theorem State.railSteps_wakeView : s.railSteps.wakeView = s.wakeView := by
  unfold State.railSteps
  dsimp only
  rw [State.withPhs_wakeView]
  exact ite_wakeView rfl (foldl_keeps State.wakeView State.railStep_wakeView _ s)

@[simp] theorem State.batStrobe_wakeView : s.batStrobe.wakeView = s.wakeView := by
  unfold State.batStrobe
  dsimp only
  repeat' split
  all_goals rfl

/-! The strobe (02 R43). -/

@[simp] theorem State.startPhases_wakeView : s.startPhases.wakeView = s.wakeView := by
  unfold State.startPhases
  refine (foldl_keeps State.wakeView (fun t g => ?_) _ _).trans (s.zeroCarriers_wakeView _)
  exact (foldl_keeps State.wakeView (fun _ _ => by rfl) _ _).trans (t.loadOfs_wakeView g)

@[simp] theorem State.holdRefs_wakeView : s.holdRefs.wakeView = s.wakeView := by
  have hstart (u : State) (hu : u.wakeView = s.wakeView) :
      (if u.phaseStart == some u.now then u.startPhases else u).wakeView = s.wakeView :=
    ite_wakeView (u.startPhases_wakeView.trans hu) hu
  unfold State.holdRefs
  refine hstart _ ?_
  rw [State.loadEff_wakeView]
  exact foldl_keeps State.wakeView (fun _ _ => by split <;> rfl) _ s

@[simp] theorem State.strobeOut_wakeView : s.strobeOut.wakeView = s.wakeView := by
  unfold State.strobeOut
  refine ite_wakeView ?_ (ite_wakeView ?_ ?_) <;> simp [State.withSns_wakeView]
end

/-- At a strobe that is due, thread F's wake comes last, after what keeps the view of it. -/
theorem State.strobe_wakeF (s : State) (hd : s.time.strobeDue = true) (hc : s.cycle ≤ 240) :
    ∃ u : State, u.wakeView = s.wakeView ∧ s.strobe = u.wakeF := by
  unfold State.strobe
  rw [if_neg (by simp [hd, hc])]
  refine ⟨_, ?_, rfl⟩
  let due : State := { s with cycle := 240, time := { s.time with strobeDue := false } }
  change due.batResults.strobeOut.startMembers.railSteps.batStrobe.loadEff.wakeView = due.wakeView
  simp

/-- Thread F, enabled and not halted, on a Stoker that runs, wakes at fentry. -/
theorem State.wakeF_wakes {s u : State} (hv : u.wakeView = s.wakeView) (he : (s.reg 0x60).getLsbD 0 = true)
    (hh : s.stk.fHalted = false) (ho : s.stokerOn = true) (hr : s.pr.resumeAt = none) :
    u.wakeF.stk.fLive = true ∧ u.wakeF.stk.thF = { s.stk.thF with pc := s.stk.fentry, intrap := false } := by
  simp only [State.wakeView, Prod.mk.injEq] at hv
  obtain ⟨hregs, hthF, hentry, hhalt, hpr, hpwr⟩ := hv
  have hon : u.stokerOn = s.stokerOn := by simp only [State.stokerOn, State.runRole, State.awake, hpr, hpwr]
  have hreg : u.reg 0x60 = s.reg 0x60 := by simp only [State.reg, hregs]
  have hw : (bit (u.reg 0x60) 0 && !u.stk.fHalted && u.stokerOn && u.pr.resumeAt.isNone) = true := by
    simp [bit, hreg, he, hhalt, hh, hon, ho, hpr, hr]
  rw [State.wakeF, if_pos hw, ← hthF, ← hentry]
  exact ⟨rfl, rfl⟩

/-- The strobe starts a slice of thread F at fentry. -/
theorem outputStrobe_wakes {s : State} (hd : s.time.strobeDue = true) (hc : s.cycle ≤ 240) (he : (s.reg 0x60).getLsbD 0 = true)
    (hh : s.stk.fHalted = false) (ho : s.stokerOn = true) (hr : s.pr.resumeAt = none) :
    Does .outputStrobe s fun t => t.stk.fLive = true ∧ t.stk.thF = { s.stk.thF with pc := s.stk.fentry, intrap := false } := by
  obtain ⟨u, hu, hs⟩ := s.strobe_wakeF hd hc
  have hw := State.wakeF_wakes hu he hh ho hr
  rw [← hs, ← s.strobe.settle_stk] at hw
  exact ⟨s.strobe.settle, rfl, hw⟩

/-- Settles O24: what RDSR reads and WRSR writes of each register, where they trap, and the wake at fentry. -/
theorem specialRegisters : Obligations.SpecialRegisters := by
  refine ⟨fun th rd sr s h => ?_, fun th rd rs1 sr s h => ?_, fun s hd hc he hh ho hr => ?_⟩
  · exact ⟨rdsr_reads h (s.readSr_tid th), rdsr_reads h rfl, rdsr_reads h rfl, rdsr_reads h (s.readSr_status th), rdsr_reads h rfl,
      rdsr_reads h rfl, rdsr_reads h rfl, rdsr_reads h rfl, rdsr_reads h rfl, rdsr_reads h rfl, rdsr_reads h rfl⟩
  · refine ⟨wrsr_writes h rfl (by simp), wrsr_writes h rfl (by simp), wrsr_writes h rfl (by simp), ?_, ?_,
      fun hro h2 => wrsr_traps h h2 (s.writeSr_readOnly th _ _ hro),
      fun hsr h2 => ⟨fun w => wrsr_illegal h h2 hsr, fun w => rdsr_illegal h h2 hsr⟩⟩
    · rintro hsr rfl
      exact wrsr_writes h rfl rfl hsr
    · rintro rfl rfl h2 w hw
      exact wrsr_fentry_F h h2 hw
  · obtain ⟨t, ht, hlive, hthF⟩ := outputStrobe_wakes hd hc he hh ho hr
    exact ⟨t, ht, hlive, by rw [hthF]⟩

end Sys2Proof.Machine
end
